-- ==== Sys2Proof/Word.lean ====
section
/-! DEFINITION. The bit vectors of the hardware: bytes on the line, 5-bit addresses, 3-bit classes (00_scope R11, 20_memory R70). -/

namespace Sys2Proof

/-- A byte: 8 bits, bit 7 the most significant (R11). -/
abbrev Byte := BitVec 8

/-- A device address: 5 bits (R71, D12). -/
abbrev Addr := BitVec 5

/-- A message class: 3 bits, 0 to 6 a data slot, 7 the command class (R72). -/
abbrev MsgClass := BitVec 3

/-- A 16-bit value: device types, firmware versions, mirror periods (R27, R36). -/
abbrev Word16 := BitVec 16

/-- A reference to a payload buffer the host owns (R74).
DESIGN CHOICE (log 12): a 16-bit number, the key of the buffer's first byte. -/
abbrev BufRef := BitVec 16

/-- Seven bits: the hardware revision (R27). -/
abbrev HwRev := BitVec 7

end Sys2Proof
end

