-- ==== Sys2Proof/Syntax.lean ====
section
/-! DEFINITION. The instructions: one constructor per row of spec/opcode_table.json, and the operands they carry
(30_encoding R100 to R119, 41_frame_codec, 40_crc8). -/

namespace Sys2Proof

/-- The direction of a message slot (10_state R35). -/
inductive Dir where
  /-- master to slave: the master writes -/
  | m2s
  /-- slave to master: the master reads -/
  | s2m
  deriving DecidableEq, Repr

/-- One entry of a declaration's slot table (R35, R119); `used` is D21's bit. -/
structure Slot where
  used : Bool
  dir : Dir
  len : Byte
  deriving DecidableEq, Repr

/-- A device declaration (R119). -/
structure Decl where
  addr : Addr
  devType : Word16
  slots : Vector Slot 8
  deriving DecidableEq, Repr

/-- A mirror definition (R119, R187); `size` is how many bytes the buffer at `buf` holds. -/
structure MirrorDef where
  addr : Addr
  slot : MsgClass
  buf : BufRef
  size : Byte
  period : Word16
  phase : Word16
  deriving DecidableEq, Repr

/-- One constructor per row of spec/opcode_table.json. Wire frames carry the bytes as they stand on the wire after the
break, the CRC bytes among them, so that a corrupted frame is an instruction too (log 10). -/
inductive Instr where
  /-- DATA0 to DATA6: `HEADER, HEADER_CRC`, then `body`: payload and CRC (shape W, R104) or nothing (shape R, R105). -/
  | data0 (addr : Addr) (hcrc : Byte) (body : List Byte)
  | data1 (addr : Addr) (hcrc : Byte) (body : List Byte)
  | data2 (addr : Addr) (hcrc : Byte) (body : List Byte)
  | data3 (addr : Addr) (hcrc : Byte) (body : List Byte)
  | data4 (addr : Addr) (hcrc : Byte) (body : List Byte)
  | data5 (addr : Addr) (hcrc : Byte) (body : List Byte)
  | data6 (addr : Addr) (hcrc : Byte) (body : List Byte)
  /-- CMD_PROBE: REQUEST[0] = 0, `args` = REQUEST[1..4], then the CRC (R106, R109). -/
  | cmdProbe (addr : Addr) (hcrc : Byte) (args : Vector Byte 4) (crc : Byte)
  /-- CMD_RENUM: REQUEST[0] = 1, REQUEST[1] = `newAddr`, `args` = REQUEST[2..4] (R110). -/
  | cmdRenum (addr : Addr) (hcrc : Byte) (newAddr : Byte) (args : Vector Byte 3) (crc : Byte)
  /-- CMD_INQUIRE: REQUEST[0] = 2 (R111). -/
  | cmdInquire (addr : Addr) (hcrc : Byte) (args : Vector Byte 4) (crc : Byte)
  /-- CMD_RESERVED: REQUEST[0] = `sub`, 3 to 255 (R112). -/
  | cmdReserved (addr : Addr) (hcrc : Byte) (sub : Byte) (args : Vector Byte 4) (crc : Byte)
  /-- INIT: registers the transport; `mutex` says whether the mutex triple is given (R181). -/
  | init (mutex : Bool)
  /-- SEND_MESSAGE (R182). -/
  | sendMessage (addr : Addr) (cls : MsgClass) (payload : List Byte)
  /-- RECEIVE_MESSAGE; `buf` is the caller's buffer (R183). -/
  | receiveMessage (addr : Addr) (cls : MsgClass) (length : Byte) (buf : BufRef)
  /-- SEND_CMD_MESSAGE; `out` is the caller's `response_out` (R184). -/
  | sendCmdMessage (addr : Addr) (request : Vector Byte 5) (out : BufRef)
  /-- DEFINE_DEVICES (R186). -/
  | defineDevices (decls : List Decl)
  /-- DEFINE_MIRRORING (R187). -/
  | defineMirroring (defs : List MirrorDef)
  /-- MIRROR_TICK (R188). -/
  | mirrorTick
  /-- RENUM_ID (R189). -/
  | renumId (old : Addr) (new : Addr)
  /-- CHECK_CONFIG (R190). -/
  | checkConfig
  /-- AUTO_CONFIG (R230). -/
  | autoConfig
  /-- The reserved selectors 10 to 15 (R115). -/
  | opReserved10
  | opReserved11
  | opReserved12
  | opReserved13
  | opReserved14
  | opReserved15
  /-- CRC8 (R141). -/
  | crc8 (r : Byte) (b : Byte)
  /-- CRC8_OVER (R144). -/
  | crc8Over (bytes : List Byte) (r : Byte)
  /-- MAKE_HEADER (R160). -/
  | makeHeader (cls : MsgClass) (addr : Addr)
  /-- SPLIT_HEADER (R161). -/
  | splitHeader (h : Byte)
  /-- HEADER_CRC (R163). -/
  | headerCrc (h : Byte)
  /-- BUILD_WRITE_FRAME (R164). -/
  | buildWriteFrame (addr : Addr) (cls : MsgClass) (payload : List Byte)
  /-- BUILD_READ_REQUEST (R165). -/
  | buildReadRequest (addr : Addr) (cls : MsgClass)
  /-- BUILD_CMD_FRAME (R166). -/
  | buildCmdFrame (addr : Addr) (request : Vector Byte 5)
  /-- PAYLOAD_OK (R167). -/
  | payloadOk (window : List Byte)
  /-- DECODE_INQUIRE (R168). -/
  | decodeInquire (resp : Vector Byte 5)
  deriving DecidableEq, Repr

/-- Where an instruction's bytes arrive: the wire (30_encoding section 1), the host's request port (R115), or the port
of the codec functions, which the spec gives no encoding (log 11). -/
inductive Port where
  | wire
  | host
  | codec
  deriving DecidableEq, Repr

/-- The bytes of one instruction at one port. -/
structure Request where
  port : Port
  bytes : List Byte
  deriving DecidableEq, Repr

end Sys2Proof
end

