-- ==== Sys2Proof/WellFormed.lean ====
section
/-! DEFINITION. Which instructions are well formed: the operand ranges of 30_encoding R116 and R119 that do not depend on
the state. What depends on the state (the directory, `MAX_PAYLOAD`, `MIRROR_MAX`) the operation itself checks. -/

namespace Sys2Proof

/-- Why an instruction is ill formed. -/
inductive WfError where
  /-- CMD_RESERVED with a sub-command below 3: those are PROBE, RENUM, INQUIRE (R112) -/
  | definedSubCommand
  /-- a data exchange with class 7 (R116, U7) -/
  | classNotData
  /-- a declaration whose address is 0 or 31 (R186, D21) -/
  | declAddress
  /-- two declarations of one address (R186, D21) -/
  | declRepeated
  /-- a mirror definition that names slot 7 (R187, D32) -/
  | mirrorSlot
  /-- a mirror definition with period 0 (R187, D32) -/
  | mirrorPeriod
  /-- a mirror definition whose phase is not below its period (R187, D32) -/
  | mirrorPhase
  deriving DecidableEq, Repr

/-- The class of a data exchange is 0 to 6 (R116). -/
def checkClass (cls : MsgClass) : Option WfError :=
  if cls = Config.cmdClass then some .classNotData else none

/-- Every declared address is 1 to 30 and none occurs twice (R186). -/
def checkDecls : List Decl → Option WfError
  | [] => none
  | d :: ds =>
    if d.addr = 0 ∨ d.addr = 31 then some .declAddress
    else if ds.any (fun e => e.addr = d.addr) then some .declRepeated
    else checkDecls ds

/-- The parts of R187's precondition that do not name the directory. -/
def checkMirrorDef (m : MirrorDef) : Option WfError :=
  if m.slot = Config.cmdClass then some .mirrorSlot
  else if m.period = 0 then some .mirrorPeriod
  else if m.phase < m.period then none
  else some .mirrorPhase

/-- The first ill-formed entry of a mirror list. -/
def checkMirrorDefs : List MirrorDef → Option WfError
  | [] => none
  | m :: ms => (checkMirrorDef m).or (checkMirrorDefs ms)

/-- What is wrong with an instruction's operands, if anything. -/
def checkInstr : Instr → Option WfError
  | .data0 _ _ _ => none
  | .data1 _ _ _ => none
  | .data2 _ _ _ => none
  | .data3 _ _ _ => none
  | .data4 _ _ _ => none
  | .data5 _ _ _ => none
  | .data6 _ _ _ => none
  | .cmdProbe _ _ _ _ => none
  | .cmdRenum _ _ _ _ _ => none
  | .cmdInquire _ _ _ _ => none
  | .cmdReserved _ _ sub _ _ => if sub < 3 then some .definedSubCommand else none
  | .init _ => none
  | .sendMessage _ cls _ => checkClass cls
  | .receiveMessage _ cls _ _ => checkClass cls
  | .sendCmdMessage _ _ _ => none
  | .defineDevices decls => checkDecls decls
  | .defineMirroring defs => checkMirrorDefs defs
  | .mirrorTick => none
  | .renumId _ _ => none
  | .checkConfig => none
  | .autoConfig => none
  | .opReserved10 => none
  | .opReserved11 => none
  | .opReserved12 => none
  | .opReserved13 => none
  | .opReserved14 => none
  | .opReserved15 => none
  | .crc8 _ _ => none
  | .crc8Over _ _ => none
  | .makeHeader _ _ => none
  | .splitHeader _ => none
  | .headerCrc _ => none
  | .buildWriteFrame _ _ _ => none
  | .buildReadRequest _ _ => none
  | .buildCmdFrame _ _ => none
  | .payloadOk _ => none
  | .decodeInquire _ => none

/-- An instruction whose operands are in range. -/
def wellFormed (i : Instr) : Bool := (checkInstr i).isNone

end Sys2Proof
end

