-- ==== Sys2Proof/Decode.lean ====
section
/-! DEFINITION. From bytes to instructions and back: the opcode map of 30_encoding R114 and R115, the header byte
(41_frame_codec R160, R161), and the encoder. Total on any bytes; what is no instruction is rejected by name. -/

namespace Sys2Proof

/-! ## Bytes, header, fields -/

/-- Bits 15 to 8 (R81). -/
def hiByte (w : Word16) : Byte := w.extractLsb' 8 8

/-- Bits 7 to 0 (R81). -/
def loByte (w : Word16) : Byte := w.extractLsb' 0 8

/-- Two bytes, most significant first (R81, R168). -/
def word16 (hi lo : Byte) : Word16 := (hi.setWidth 16 <<< 8) ||| lo.setWidth 16

/-- `make_header(class, address)` (R160). -/
def makeHeader (cls : MsgClass) (addr : Addr) : Byte := (cls.setWidth 8 <<< 5) ||| addr.setWidth 8

/-- `h[7:5]`, the class (R161). -/
def headerClass (h : Byte) : MsgClass := h.extractLsb' 5 3

/-- `h[4:0]`, the address (R161). -/
def headerAddr (h : Byte) : Addr := h.extractLsb' 0 5

/-- `split_header(byte)` (R161). -/
def splitHeader (h : Byte) : MsgClass × Addr := (headerClass h, headerAddr h)

/-- Why bytes are no instruction. -/
inductive DecodeError where
  /-- wire bytes that are no frame of shape W, R or C (R104 to R106) -/
  | notAFrame
  /-- a selector above 15 (R115) -/
  | badSelector
  /-- operand bytes missing or left over -/
  | wrongLength
  /-- an operand byte beyond its field, which is never masked (R116, R169, U7) -/
  | fieldOutOfRange
  /-- operands in their fields but out of their ranges -/
  | illFormed (e : WfError)
  deriving DecidableEq, Repr

/-- A 5-bit field in a byte; a larger value is rejected (R116). -/
def addrOf (b : Byte) : Except DecodeError Addr :=
  if b < 32 then .ok (b.setWidth 5) else .error .fieldOutOfRange

/-- A 3-bit field in a byte (R116). -/
def classOf (b : Byte) : Except DecodeError MsgClass :=
  if b < 8 then .ok (b.setWidth 3) else .error .fieldOutOfRange

/-- A 1-bit field in a byte. -/
def flagOf (b : Byte) : Except DecodeError Bool :=
  if b = 0 then .ok false else if b = 1 then .ok true else .error .fieldOutOfRange

/-- Slot flags: bit 0 `used`, bit 1 the direction (log 11). -/
def slotOf (f len : Byte) : Except DecodeError Slot :=
  if f < 4 then .ok ⟨f.getLsbD 0, if f.getLsbD 1 then .s2m else .m2s, len⟩ else .error .fieldOutOfRange

/-! ## The wire (R114) -/

/-- A class-7 frame by its first request byte (R112, R114 step 4). -/
def commandOf (addr : Addr) (hcrc r0 r1 r2 r3 r4 crc : Byte) : Instr :=
  if r0 = Config.subProbe then .cmdProbe addr hcrc #v[r1, r2, r3, r4] crc
  else if r0 = Config.subRenum then .cmdRenum addr hcrc r1 #v[r2, r3, r4] crc
  else if r0 = Config.subInquire then .cmdInquire addr hcrc #v[r1, r2, r3, r4] crc
  else .cmdReserved addr hcrc r0 #v[r1, r2, r3, r4] crc

/-- A data frame by its class (R114 step 5). -/
def dataOf (cls : MsgClass) (addr : Addr) (hcrc : Byte) (body : List Byte) : Except DecodeError Instr :=
  match cls.toNat with
  | 0 => .ok (.data0 addr hcrc body)
  | 1 => .ok (.data1 addr hcrc body)
  | 2 => .ok (.data2 addr hcrc body)
  | 3 => .ok (.data3 addr hcrc body)
  | 4 => .ok (.data4 addr hcrc body)
  | 5 => .ok (.data5 addr hcrc body)
  | 6 => .ok (.data6 addr hcrc body)
  | _ => .error .notAFrame

/-- The bytes between two breaks, read as one frame. -/
def parseWire : List Byte → Except DecodeError Instr
  | h :: hcrc :: body =>
    if headerClass h = Config.cmdClass then
      match body with
      | [r0, r1, r2, r3, r4, crc] => .ok (commandOf (headerAddr h) hcrc r0 r1 r2 r3 r4 crc)
      | _ => .error .notAFrame
    else dataOf (headerClass h) (headerAddr h) hcrc body
  | _ => .error .notAFrame

/-! ## The host's request port (R115, R116, R119; operand layout: log 11) -/

/-- One slot: a flags byte and a length byte. -/
def takeSlot : List Byte → Except DecodeError (Slot × List Byte)
  | f :: len :: rest => (slotOf f len).map (fun s => (s, rest))
  | _ => .error .wrongLength

/-- One declaration: address, type (two bytes), eight slots. -/
def takeDecl : List Byte → Except DecodeError (Decl × List Byte)
  | a :: th :: tl :: rest => do
    let addr ← addrOf a
    let (s0, rest) ← takeSlot rest
    let (s1, rest) ← takeSlot rest
    let (s2, rest) ← takeSlot rest
    let (s3, rest) ← takeSlot rest
    let (s4, rest) ← takeSlot rest
    let (s5, rest) ← takeSlot rest
    let (s6, rest) ← takeSlot rest
    let (s7, rest) ← takeSlot rest
    .ok (⟨addr, word16 th tl, #v[s0, s1, s2, s3, s4, s5, s6, s7]⟩, rest)
  | _ => .error .wrongLength

/-- One mirror definition: address, slot, buffer, size, period, phase. -/
def takeMirrorDef : List Byte → Except DecodeError (MirrorDef × List Byte)
  | a :: s :: bh :: bl :: size :: ph :: pl :: fh :: fl :: rest => do
    let addr ← addrOf a
    let slot ← classOf s
    .ok (⟨addr, slot, word16 bh bl, size, word16 ph pl, word16 fh fl⟩, rest)
  | _ => .error .wrongLength

/-- Items one after another until the bytes end; `fuel` is at least the number of items and one. -/
def takeAll {α : Type} (take : List Byte → Except DecodeError (α × List Byte)) :
    Nat → List Byte → Except DecodeError (List α)
  | _, [] => .ok []
  | 0, _ :: _ => .error .wrongLength
  | fuel + 1, b :: bs => do
    let (x, rest) ← take (b :: bs)
    let xs ← takeAll take fuel rest
    .ok (x :: xs)

/-- Five bytes (R116 `request[5]`). -/
def five : List Byte → Except DecodeError (Vector Byte 5)
  | [a, b, c, d, e] => .ok #v[a, b, c, d, e]
  | _ => .error .wrongLength

/-- No operand bytes. -/
def takeNothing (i : Instr) : List Byte → Except DecodeError Instr
  | [] => .ok i
  | _ :: _ => .error .wrongLength

/-- INIT: one flag byte, the mutex. -/
def takeInit : List Byte → Except DecodeError Instr
  | [m] => (flagOf m).map .init
  | _ => .error .wrongLength

/-- SEND_MESSAGE: address, class, payload. -/
def takeSendMessage : List Byte → Except DecodeError Instr
  | a :: c :: payload => do .ok (.sendMessage (← addrOf a) (← classOf c) payload)
  | _ => .error .wrongLength

/-- RECEIVE_MESSAGE: address, class, length, buffer. -/
def takeReceiveMessage : List Byte → Except DecodeError Instr
  | [a, c, len, bh, bl] => do .ok (.receiveMessage (← addrOf a) (← classOf c) len (word16 bh bl))
  | _ => .error .wrongLength

/-- SEND_CMD_MESSAGE: address, five request bytes, `response_out`. -/
def takeSendCmdMessage : List Byte → Except DecodeError Instr
  | [a, r0, r1, r2, r3, r4, bh, bl] => do .ok (.sendCmdMessage (← addrOf a) #v[r0, r1, r2, r3, r4] (word16 bh bl))
  | _ => .error .wrongLength

/-- RENUM_ID: the old address, the new one. -/
def takeRenumId : List Byte → Except DecodeError Instr
  | [o, n] => do .ok (.renumId (← addrOf o) (← addrOf n))
  | _ => .error .wrongLength

/-- A host operation by its selector (R115). -/
def parseHostOp (op : Nat) (rest : List Byte) : Except DecodeError Instr :=
  match op with
  | 0 => takeInit rest
  | 1 => takeSendMessage rest
  | 2 => takeReceiveMessage rest
  | 3 => takeSendCmdMessage rest
  | 4 => (takeAll takeDecl rest.length rest).map .defineDevices
  | 5 => (takeAll takeMirrorDef rest.length rest).map .defineMirroring
  | 6 => takeNothing .mirrorTick rest
  | 7 => takeRenumId rest
  | 8 => takeNothing .checkConfig rest
  | 9 => takeNothing .autoConfig rest
  | 10 => takeNothing .opReserved10 rest
  | 11 => takeNothing .opReserved11 rest
  | 12 => takeNothing .opReserved12 rest
  | 13 => takeNothing .opReserved13 rest
  | 14 => takeNothing .opReserved14 rest
  | 15 => takeNothing .opReserved15 rest
  | _ => .error .badSelector

/-- A request: the selector byte and its operands. -/
def parseHost : List Byte → Except DecodeError Instr
  | op :: rest => parseHostOp op.toNat rest
  | [] => .error .wrongLength

/-! ## The codec port: the model's own selectors, in the table's order (log 11) -/

/-- CRC8: running value, byte. -/
def takeCrc8 : List Byte → Except DecodeError Instr
  | [r, b] => .ok (.crc8 r b)
  | _ => .error .wrongLength

/-- CRC8_OVER: start value, bytes. DESIGN CHOICE (log 11): R144 gives the call no bytes, and the start value comes first here,
though the signature names it last, so that the sequence may end where the request does. -/
def takeCrc8Over : List Byte → Except DecodeError Instr
  | r :: bytes => .ok (.crc8Over bytes r)
  | [] => .error .wrongLength

/-- MAKE_HEADER: class, address. -/
def takeMakeHeader : List Byte → Except DecodeError Instr
  | [c, a] => do .ok (.makeHeader (← classOf c) (← addrOf a))
  | _ => .error .wrongLength

/-- SPLIT_HEADER and HEADER_CRC: the header byte. -/
def takeHeader (f : Byte → Instr) : List Byte → Except DecodeError Instr
  | [h] => .ok (f h)
  | _ => .error .wrongLength

/-- BUILD_WRITE_FRAME: address, class, payload. -/
def takeBuildWriteFrame : List Byte → Except DecodeError Instr
  | a :: c :: payload => do .ok (.buildWriteFrame (← addrOf a) (← classOf c) payload)
  | _ => .error .wrongLength

/-- BUILD_READ_REQUEST: address, class. -/
def takeBuildReadRequest : List Byte → Except DecodeError Instr
  | [a, c] => do .ok (.buildReadRequest (← addrOf a) (← classOf c))
  | _ => .error .wrongLength

/-- BUILD_CMD_FRAME: address, five request bytes. -/
def takeBuildCmdFrame : List Byte → Except DecodeError Instr
  | a :: req => do .ok (.buildCmdFrame (← addrOf a) (← five req))
  | [] => .error .wrongLength

/-- A codec function by its place among the table's functions. -/
def parseCodecOp (op : Nat) (rest : List Byte) : Except DecodeError Instr :=
  match op with
  | 0 => takeCrc8 rest
  | 1 => takeCrc8Over rest
  | 2 => takeMakeHeader rest
  | 3 => takeHeader .splitHeader rest
  | 4 => takeHeader .headerCrc rest
  | 5 => takeBuildWriteFrame rest
  | 6 => takeBuildReadRequest rest
  | 7 => takeBuildCmdFrame rest
  | 8 => .ok (.payloadOk rest)
  | 9 => (five rest).map .decodeInquire
  | _ => .error .badSelector

/-- A codec request: the selector byte and its operands. -/
def parseCodec : List Byte → Except DecodeError Instr
  | op :: rest => parseCodecOp op.toNat rest
  | [] => .error .wrongLength

/-- The instruction the bytes at a port stand for, its operands' ranges not yet checked. -/
def parse (r : Request) : Except DecodeError Instr :=
  match r.port with
  | .wire => parseWire r.bytes
  | .host => parseHost r.bytes
  | .codec => parseCodec r.bytes

/-- Reject an instruction whose operands are out of range (R116). -/
def accept (i : Instr) : Except DecodeError Instr :=
  match checkInstr i with
  | none => .ok i
  | some e => .error (.illFormed e)

/-- The decoder: a well-formed instruction, or why there is none. -/
def decode (r : Request) : Except DecodeError Instr :=
  match parse r with
  | .ok i => accept i
  | .error e => .error e

/-! ## The encoder -/

/-- The bytes of a slot (log 11). -/
def encodeSlot (s : Slot) : List Byte :=
  [(if s.used then 1 else 0) ||| (if s.dir = .s2m then 2 else 0), s.len]

/-- The bytes of a declaration. -/
def encodeDecl (d : Decl) : List Byte :=
  d.addr.setWidth 8 :: hiByte d.devType :: loByte d.devType :: d.slots.toList.flatMap encodeSlot

/-- The bytes of a mirror definition. -/
def encodeMirrorDef (m : MirrorDef) : List Byte :=
  [m.addr.setWidth 8, m.slot.setWidth 8, hiByte m.buf, loByte m.buf, m.size,
   hiByte m.period, loByte m.period, hiByte m.phase, loByte m.phase]

/-- A data frame's bytes on the wire (R101, R104, R105). -/
def encodeData (cls : MsgClass) (addr : Addr) (hcrc : Byte) (body : List Byte) : Request :=
  ⟨.wire, makeHeader cls addr :: hcrc :: body⟩

/-- A command frame's bytes on the wire (R106, R108). -/
def encodeCmd (addr : Addr) (hcrc sub : Byte) (args : List Byte) (crc : Byte) : Request :=
  ⟨.wire, makeHeader Config.cmdClass addr :: hcrc :: sub :: (args ++ [crc])⟩

/-- The port and the bytes of an instruction. -/
def encode : Instr → Request
  | .data0 addr hcrc body => encodeData 0 addr hcrc body
  | .data1 addr hcrc body => encodeData 1 addr hcrc body
  | .data2 addr hcrc body => encodeData 2 addr hcrc body
  | .data3 addr hcrc body => encodeData 3 addr hcrc body
  | .data4 addr hcrc body => encodeData 4 addr hcrc body
  | .data5 addr hcrc body => encodeData 5 addr hcrc body
  | .data6 addr hcrc body => encodeData 6 addr hcrc body
  | .cmdProbe addr hcrc args crc => encodeCmd addr hcrc Config.subProbe args.toList crc
  | .cmdRenum addr hcrc newAddr args crc => encodeCmd addr hcrc Config.subRenum (newAddr :: args.toList) crc
  | .cmdInquire addr hcrc args crc => encodeCmd addr hcrc Config.subInquire args.toList crc
  | .cmdReserved addr hcrc sub args crc => encodeCmd addr hcrc sub args.toList crc
  | .init mutex => ⟨.host, [0, if mutex then 1 else 0]⟩
  | .sendMessage addr cls payload => ⟨.host, 1 :: addr.setWidth 8 :: cls.setWidth 8 :: payload⟩
  | .receiveMessage addr cls len buf => ⟨.host, [2, addr.setWidth 8, cls.setWidth 8, len, hiByte buf, loByte buf]⟩
  | .sendCmdMessage addr request out =>
    ⟨.host, 3 :: addr.setWidth 8 :: (request.toList ++ [hiByte out, loByte out])⟩
  | .defineDevices decls => ⟨.host, 4 :: decls.flatMap encodeDecl⟩
  | .defineMirroring defs => ⟨.host, 5 :: defs.flatMap encodeMirrorDef⟩
  | .mirrorTick => ⟨.host, [6]⟩
  | .renumId old new => ⟨.host, [7, old.setWidth 8, new.setWidth 8]⟩
  | .checkConfig => ⟨.host, [8]⟩
  | .autoConfig => ⟨.host, [9]⟩
  | .opReserved10 => ⟨.host, [10]⟩
  | .opReserved11 => ⟨.host, [11]⟩
  | .opReserved12 => ⟨.host, [12]⟩
  | .opReserved13 => ⟨.host, [13]⟩
  | .opReserved14 => ⟨.host, [14]⟩
  | .opReserved15 => ⟨.host, [15]⟩
  | .crc8 r b => ⟨.codec, [0, r, b]⟩
  | .crc8Over bytes r => ⟨.codec, 1 :: r :: bytes⟩
  | .makeHeader cls addr => ⟨.codec, [2, cls.setWidth 8, addr.setWidth 8]⟩
  | .splitHeader h => ⟨.codec, [3, h]⟩
  | .headerCrc h => ⟨.codec, [4, h]⟩
  | .buildWriteFrame addr cls payload => ⟨.codec, 5 :: addr.setWidth 8 :: cls.setWidth 8 :: payload⟩
  | .buildReadRequest addr cls => ⟨.codec, [6, addr.setWidth 8, cls.setWidth 8]⟩
  | .buildCmdFrame addr request => ⟨.codec, 7 :: addr.setWidth 8 :: request.toList⟩
  | .payloadOk window => ⟨.codec, 8 :: window⟩
  | .decodeInquire resp => ⟨.codec, 9 :: resp.toList⟩

/-! ## Words of spec/opcode_table.json -/

/-- How many operand bytes of zero follow a selector, the variable-length operands empty (log 11). -/
def zeroOperands (op : Nat) : Nat :=
  match op with
  | 0 => 1
  | 1 => 2
  | 2 => 5
  | 3 => 8
  | 7 => 2
  | _ => 0

/-- The request a word of the opcode table stands for, every operand byte beyond the table's bits 0. 16 bits are
`HEADER<<8 | REQUEST[0]`; 8 bits or fewer are a host selector below 16 and otherwise a data header (log 11). -/
def tableRequest (nbits w : Nat) : Option Request :=
  if nbits = 16 then
    if w < 65536 then
      some ⟨.wire, BitVec.ofNat 8 (w / 256) :: 0 :: BitVec.ofNat 8 (w % 256) :: List.replicate 5 0⟩
    else none
  else if 0 < nbits ∧ nbits ≤ 8 then
    if w < 16 then some ⟨.host, BitVec.ofNat 8 w :: List.replicate (zeroOperands w) 0⟩
    else if w < 256 then some ⟨.wire, [BitVec.ofNat 8 w, 0]⟩
    else none
  else none

/-- The instruction the decoder reads from a word of spec/opcode_table.json, if any. -/
def decodeTableWord (nbits w : Nat) : Option Instr :=
  match tableRequest nbits w with
  | some r =>
    match decode r with
    | .ok i => some i
    | .error _ => none
  | none => none

end Sys2Proof
end

