-- ==== Sys2Proof/Machine/State.lean ====
section
/-! DEFINITION. The state of the whole system (10_state R20): the master, every slave on the bus, the bus, the host's
payload buffers, the pending inputs; and what it is after reset (70_reset R390 to R393). Plain data. -/

namespace Sys2Proof.Machine

/-! ## Outcomes -/

/-- No machine fault exists: "Nothing traps", "nothing throws/aborts" (60_exceptions R340). Nobody raises one; safe. -/
inductive Fault where
  deriving DecidableEq, Repr

/-- Why the model refuses an input: only where the spec says that a model refuses it. -/
inductive Refusal where
  /-- raised by `exec` for an instruction that has no meaning yet; safe -/
  | notModelled (mnemonic : String)
  /-- raised by `step`: the bytes at the host's or the codec port are no call: no selector, an operand missing, left over or
  beyond its field (R115, R116, R169, U7); safe -/
  | undecodable (e : DecodeError)
  /-- raised by the reserved selectors 10 to 15 (R115 "a model refuses them", U7); safe -/
  | reservedSelector
  /-- raised by a host operation whose operands are out of range (R116, R186, R187, U7); safe -/
  | operandOutOfRange (e : WfError)
  /-- raised by SEND_MESSAGE, RECEIVE_MESSAGE and DEFINE_DEVICES: a payload or a slot longer than `MAX_PAYLOAD` (R35, R116,
  U7); safe -/
  | payloadTooLong
  /-- raised by DEFINE_MIRRORING: an entry names an undeclared address, an unused slot or too small a buffer (R187); safe -/
  | mirrorNotDeclared
  /-- raised by DEFINE_MIRRORING: more entries than `MIRROR_MAX` (R10, D32); safe -/
  | mirrorTableFull
  /-- raised by MIRROR_TICK: an entry names what is no longer declared (R188, R401, U13); safe -/
  | staleMirrorEntry
  /-- raised by a host operation while another one is in progress (R89, U5); safe -/
  | operationInProgress
  deriving DecidableEq, Repr

/-! ## Result codes and scan results -/

/-- The result codes (30_encoding R117): an enumeration without numbers (D4). -/
inductive ResultCode where
  | ok
  | noResponse
  | timeout
  | crcError
  | notAcknowledged
  | noFreeAddress
  | typeConflict
  | idRenumbered
  | typeConflictResolved
  | notInitialized
  | passLimit
  deriving DecidableEq, Repr

/-- The scan result of an address (R37, R118). -/
inductive ScanResult where
  | rescan
  | ok
  | noResponse
  | other (code : ResultCode)
  deriving DecidableEq, Repr

/-! ## A slave -/

/-- The eleven protocol states (R21, D34). -/
inductive SlaveState where
  | waitBreak
  | rxHeader
  | rxMsg
  | rxCtrlMsg
  | checkRxCrc
  | checkRxCtrlCrc
  | txAck
  | txMsg
  | txCtrlResp
  | waitRenumTimer
  | txRenumConf
  deriving DecidableEq, Repr

/-- What the device's catalog says of a class (R43, R266, U18): the answer of `init_transfer` and the slot's fixed
length. A write slot of length 0, which U9 has a model refuse, cannot be written down. -/
inductive SlotKind where
  | ignore
  /-- a write slot of `more + 1` bytes -/
  | receive (more : Nat)
  /-- a read slot of `len` bytes -/
  | transmit (len : Nat)
  deriving DecidableEq, Repr

/-- A callback the slave made, with its argument or answer (30_encoding R121). -/
inductive Call where
  | initTransfer (cls : MsgClass)
  | endTransfer (cls : MsgClass)
  | storeByte (b : Byte)
  | fetchByte (answer : Option Byte)
  | enableTransmitEmptySignal (on : Bool)
  | readIndicator (pressed : Bool)
  | persistAddress (a : Addr)
  deriving DecidableEq, Repr

/-- The device firmware as the core meets it: the MODEL's own record, not state of the core (R43, log 14). -/
structure Device where
  /-- the slot table, by class; entry 7 is never asked for (R72) -/
  catalog : Vector SlotKind 8
  /-- bytes stored or fetched in the transfer in progress -/
  pos : Nat
  /-- the callbacks made, the newest first -/
  calls : List Call
  deriving DecidableEq, Repr

/-- One slave (10_state section 2). -/
structure Slave where
  /-- R21 -/
  st : SlaveState
  /-- R22 -/
  ownAddr : Addr
  /-- R32 -/
  eepromAddr : Addr
  /-- R23 -/
  crc : Byte
  /-- R24 -/
  hdr : Byte
  /-- R24 -/
  msgClass : MsgClass
  /-- R25 -/
  idx : Byte
  /-- R25 -/
  len : Byte
  /-- R26 -/
  ctrlReq : Vector Byte 5
  /-- R26 -/
  ctrlResp : Vector Byte 5
  /-- R27 -/
  devType : Word16
  /-- R27 -/
  fwVer : Word16
  /-- R27 -/
  hwRev : HwRev
  /-- R28 -/
  renumTarget : Addr
  /-- R29, microseconds -/
  renumTimer : Word16
  /-- R30 -/
  txEn : Bool
  /-- R31 -/
  lastTx : Byte
  /-- the device firmware -/
  dev : Device
  deriving DecidableEq, Repr

/-- What a slave keeps through a reset or is configured with (R27, R32, U18). -/
structure SlaveConfig where
  eepromAddr : Addr
  devType : Word16
  fwVer : Word16
  hwRev : HwRev
  catalog : Vector SlotKind 8
  deriving DecidableEq, Repr

/-- A slave right after its reset (70_reset R391). The registers R391 leaves unspecified are 0: DESIGN CHOICE (log 4). -/
def Slave.afterReset (c : SlaveConfig) : Slave where
  st := .waitBreak
  ownAddr := c.eepromAddr
  eepromAddr := c.eepromAddr
  crc := 0
  hdr := 0
  msgClass := 0
  idx := 0
  len := 0
  ctrlReq := #v[0, 0, 0, 0, 0]
  ctrlResp := #v[0, 0, 0, 0, 0]
  devType := c.devType
  fwVer := c.fwVer
  hwRev := c.hwRev
  renumTarget := 0
  renumTimer := 0
  txEn := false
  lastTx := 0
  dev := { catalog := c.catalog, pos := 0, calls := [] }

/-! ## The master -/

/-- One entry of the directory (R35). -/
structure DirEntry where
  valid : Bool
  devType : Word16
  slots : Vector Slot 8
  deriving DecidableEq, Repr

/-- One entry of the mirror table (R36); `size` is how many bytes the host's buffer at `buf` holds. -/
structure MirrorEntry where
  addr : Addr
  slot : MsgClass
  buf : BufRef
  size : Byte
  period : Word16
  phase : Word16
  ticker : Word16
  deriving DecidableEq, Repr

/-- The registered transport (R33, R120): a binding; what can differ is whether the mutex triple was given. -/
structure Transport where
  mutex : Bool
  deriving DecidableEq, Repr

/-- The master engine (10_state section 3). -/
structure Master where
  /-- R33 -/
  initialized : Bool
  /-- R33 -/
  transport : Option Transport
  /-- R40: how often the engine holds the host's mutex (log 18) -/
  mutexDepth : Nat
  /-- R34 -/
  timeoutUs : BitVec 32
  /-- R35 -/
  dir : Vector DirEntry 32
  /-- R36 -/
  mirror : List MirrorEntry
  /-- R37 -/
  res : Vector ScanResult 32
  /-- R37 -/
  rtype : Vector Word16 32
  /-- R38 -/
  renumbered : Bool
  /-- R38 -/
  swapped : Bool
  /-- R39 -/
  txbuf : List Byte
  /-- R39 -/
  rxbuf : List Byte
  /-- R39 -/
  n : Nat
  /-- R41 (a): the code of the last operation that returned -/
  result : Option ResultCode
  /-- R41 (b), R351 -/
  failedAddress : Addr
  /-- R118: the output array of AUTO_CONFIG -/
  resultPerAddress : Vector ScanResult 32
  /-- the AUTO_CONFIG in progress and its passes so far (43 R231, R232); none between operations -/
  autoPasses : Option Nat
  deriving DecidableEq, Repr

/-- An undeclared directory entry (R392); type and slots DESIGN CHOICE (log 4). -/
def DirEntry.blank : DirEntry where
  valid := false
  devType := 0
  slots := Vector.replicate 8 ⟨false, .m2s, 0⟩

/-- The master right after its reset (70_reset R392), its timeout the configured `TIMEOUT_US` (R34). What R392 leaves unspecified: DESIGN CHOICE (log 4). -/
def Master.afterReset (p : Params) : Master where
  initialized := false
  transport := none
  mutexDepth := 0
  timeoutUs := p.timeoutUs
  dir := Vector.replicate 32 DirEntry.blank
  mirror := []
  res := Vector.replicate 32 .rescan
  rtype := Vector.replicate 32 0
  renumbered := false
  swapped := false
  txbuf := []
  rxbuf := []
  n := 0
  result := none
  failedAddress := 0
  resultPerAddress := Vector.replicate 32 .rescan
  autoPasses := none

/-! ## The bus, the buffers, the inputs -/

/-- A disturbance of one character slot: an input of the model (R96, 90_conflicts C6, log 22). -/
inductive Noise where
  /-- every receiver hears the line -/
  | clean
  /-- these bits flipped for every receiver -/
  | flipAll (mask : Byte)
  /-- these bits flipped for the master's receiver only -/
  | flipAtMaster (mask : Byte)
  /-- the master's receiver loses the byte -/
  | lostAtMaster
  /-- transmissions that do not share a slot: a free byte for every receiver (R96) -/
  | garbled
  deriving DecidableEq, Repr

/-- The bus medium (R42, R47 d). A transmitter is named by the slave's place in `State.slaves`. -/
structure Bus where
  /-- a break is being signalled -/
  breakOn : Bool
  /-- the bytes handed to transmitters and not yet heard -/
  inFlight : List (Nat × Byte)
  /-- what the master's receiver observed since the last break (R79) -/
  stream : List Byte
  /-- disturbances of the coming slots -/
  noise : List Noise
  deriving DecidableEq, Repr

/-- The bus after reset: idle (R393). -/
def Bus.idle : Bus where
  breakOn := false
  inFlight := []
  stream := []
  noise := []

/-- The host's payload buffers (R70 d, R74): cells at rising addresses, none equal to what an unlisted address reads. -/
abbrev Memory := List Host.Cell

/-- The free values: draws the environment supplied, then `Config.freeByte` of the counter (log 3). -/
structure Free where
  queue : List Byte
  count : Nat
  deriving DecidableEq, Repr

/-- The events of a slave (60_exceptions R352). -/
inductive Event where
  | brk
  | rx (b : Byte)
  | txe
  | tick
  deriving DecidableEq, Repr

/-- What the outside world hands the machine, one at a time (log 20). -/
inductive Input where
  /-- an instruction's bytes at a port -/
  | request (r : Request)
  /-- one event at one slave, named by its place (R352) -/
  | event (slave : Nat) (e : Event)
  /-- a break on the line (R77) -/
  | lineBreak
  /-- a byte on the line, from outside the modelled nodes (R75) -/
  | lineByte (b : Byte)
  /-- the bus moves on by one turn -/
  | elapse
  /-- the reset of one slave (R390, R391) -/
  | resetSlave (slave : Nat)
  /-- the reset of the master (R390, R392) -/
  | resetMaster
  /-- the host fills a buffer of its own (R74) -/
  | hostWrite (buf : BufRef) (bytes : List Byte)
  /-- the environment supplies draws (R12 `draw`) -/
  | supply (draws : List Byte)
  /-- the line is disturbed in the coming slots -/
  | disturb (noise : List Noise)
  deriving DecidableEq, Repr

/-- The answer of a codec function (41_frame_codec): a field of the MODEL (log 11). -/
inductive CodecOut where
  | none
  | byte (b : Byte)
  | header (cls : MsgClass) (addr : Addr)
  | bytes (bs : List Byte)
  | flag (b : Bool)
  | inquire (devType fwVer : Word16) (hwRev : HwRev) (button : Bool)
  deriving DecidableEq, Repr

/-! ## The system -/

/-- The whole system (R20). -/
structure State where
  /-- the parameters of the machine; no step changes them -/
  params : Params
  /-- the master -/
  master : Master
  /-- every slave on the bus -/
  slaves : List Slave
  /-- the bus medium -/
  bus : Bus
  /-- the host's payload buffers -/
  mem : Memory
  /-- the free values -/
  free : Free
  /-- the pending inputs, the oldest first -/
  inputs : List Input
  /-- the last codec answer -/
  codecOut : CodecOut
  deriving DecidableEq, Repr

/-- The system after reset, for any parameters and any slaves (R391 to R393). -/
def State.afterReset (p : Params) (slaves : List SlaveConfig) : State where
  params := p
  master := Master.afterReset p
  slaves := slaves.map Slave.afterReset
  bus := Bus.idle
  mem := []
  free := { queue := [], count := 0 }
  inputs := []
  codecOut := .none

/-- The slave of `State.reset`: one slave at address 1 whose device declares no slot.
DESIGN CHOICE (log 5): FACTORY_ADDR, the identifiers and the catalog are open (R10, U18). -/
def SlaveConfig.reference : SlaveConfig where
  eepromAddr := 1
  devType := 0
  fwVer := 0
  hwRev := 0
  catalog := Vector.replicate 8 .ignore

/-- The machine right after reset. -/
def State.reset : State := State.afterReset Config.reference [SlaveConfig.reference]

end Sys2Proof.Machine
end

