-- ==== Sys2Proof/Machine/Flags.lean ====
section
/-! DEFINITION. The CRC8 generator and the tests made on it, and the classification of a read-back into a result code.
The hardware has no flags register (10_state R41); these are what plays its part. -/

namespace Sys2Proof.Machine

/-! ## The generator (40_crc8) -/

/-- An entry of `CRC8_TABLE`. -/
def crcTable (p : Params) (b : Byte) : Byte := p.crcTable.get b.toFin

/-- `crc8(r, b)` (R141). -/
def crc8 (p : Params) (r b : Byte) : Byte := crcTable p (r ^^^ b)

/-- `crc8_over(bytes, r)` (R144). -/
def crc8Over (p : Params) : List Byte → Byte → Byte
  | [], r => r
  | b :: bs, r => crc8Over p bs (crc8 p r b)

/-- The zero law and the permutation law of the table (R142, R143). -/
def CrcLaws (p : Params) : Prop :=
  crcTable p 0 = 0 ∧ ∀ x y : Byte, crcTable p x = crcTable p y → x = y

/-- `header_crc(h)` (R163). -/
def headerCrc (p : Params) (h : Byte) : Byte := crc8 p Config.seed h

/-- The trailing CRC of a payload (R103). -/
def payloadCrc (p : Params) (payload : List Byte) : Byte := crc8Over p payload Config.seed

/-- `payload_ok(window)` (R167): the residue is zero. -/
def payloadOk (p : Params) (window : List Byte) : Bool := crc8Over p window Config.seed = 0

/-! ## Result codes (42 R182 to R185, 60 R350) -/

/-- `HDRWIN` (R10, R15): break echo, header echo, header CRC echo. -/
def hdrWin (p : Params) : Nat := 2 + p.breakEchoBytes.val

/-- `classify(n, W, E)` (R185): the two count tests, in their order; none to go on to the content checks. -/
def countVerdict (n w e : Nat) : Option ResultCode :=
  if n = w + 1 then some .noResponse
  else if n < e then some .timeout
  else none

/-- The result of SEND_MESSAGE from the bytes written and read back (R182, R350). -/
def sendVerdict (p : Params) (f rx : List Byte) (e : Nat) : ResultCode :=
  match countVerdict rx.length f.length e with
  | some r => r
  | none =>
    if (rx.drop (hdrWin p)).take (f.length - 2) ≠ f.drop 2 then .crcError
    else if rx[e - 1]? ≠ some Config.ack then .notAcknowledged
    else .ok

/-- The reply window of a read-back: the bytes from `start` to the end of the count asked for (R183, R184). -/
def replyWindow (start e : Nat) (rx : List Byte) : List Byte := (rx.take e).drop start

/-- The result of RECEIVE_MESSAGE and SEND_CMD_MESSAGE, whose reply window starts at `start` (R183, R184). -/
def replyVerdict (p : Params) (w start e : Nat) (rx : List Byte) : ResultCode :=
  match countVerdict rx.length w e with
  | some r => r
  | none => if payloadOk p (replyWindow start e rx) then .ok else .crcError

end Sys2Proof.Machine
end

