-- ==== Sys2Proof/Machine/Operands.lean ====
section
/-! DEFINITION. The frame encoder and decoder's operand forms: frames, windows, the INQUIRE response
(41_frame_codec R164 to R168), and the units of time of the renumber backoff. -/

namespace Sys2Proof.Machine

/-! ## Frames (R164 to R166) -/

/-- `[h, header_crc(h)]`. -/
def headerBytes (p : Params) (cls : MsgClass) (addr : Addr) : List Byte :=
  [makeHeader cls addr, headerCrc p (makeHeader cls addr)]

/-- `build_write_frame(address, class, payload)` (R164). -/
def buildWriteFrame (p : Params) (addr : Addr) (cls : MsgClass) (payload : List Byte) : List Byte :=
  headerBytes p cls addr ++ payload ++ [payloadCrc p payload]

/-- `build_read_request(address, class)` (R165). -/
def buildReadRequest (p : Params) (addr : Addr) (cls : MsgClass) : List Byte := headerBytes p cls addr

/-- `build_cmd_frame(address, request)` (R166). -/
def buildCmdFrame (p : Params) (addr : Addr) (request : Vector Byte 5) : List Byte :=
  headerBytes p Config.cmdClass addr ++ request.toList ++ [payloadCrc p request.toList]

/-- The request of PROBE (R109, D18). -/
def probeRequest : Vector Byte 5 := #v[Config.subProbe, 0, 0, 0, 0]

/-- The request of INQUIRE (R111, D18). -/
def inquireRequest : Vector Byte 5 := #v[Config.subInquire, 0, 0, 0, 0]

/-- The request of RENUM to `new` (R110, R189). -/
def renumRequest (new : Addr) : Vector Byte 5 := #v[Config.subRenum, new.setWidth 8, 0, 0, 0]

/-! ## The INQUIRE response (R111, R168) -/

/-- The type reported by an INQUIRE response. -/
def inquireType (resp : Vector Byte 5) : Word16 := word16 resp[0] resp[1]

/-- The firmware version. -/
def inquireFw (resp : Vector Byte 5) : Word16 := word16 resp[2] resp[3]

/-- The hardware revision. -/
def inquireHw (resp : Vector Byte 5) : HwRev := resp[4].extractLsb' 0 7

/-- The button. -/
def inquireButton (resp : Vector Byte 5) : Bool := resp[4].getLsbD 7

/-- The slave's encoder (R168, R273). -/
def encodeInquire (devType fwVer : Word16) (hwRev : HwRev) (button : Bool) : Vector Byte 5 :=
  #v[hiByte devType, loByte devType, hiByte fwVer, loByte fwVer,
     ((BitVec.ofBool button).setWidth 8 <<< 7) ||| hwRev.setWidth 8]

/-- Five bytes of a list from its head, missing ones 0. -/
def fiveOf (bs : List Byte) : Vector Byte 5 :=
  #v[bs.getD 0 0, bs.getD 1 0, bs.getD 2 0, bs.getD 3 0, bs.getD 4 0]

/-! ## Time (R10, R321) -/

/-- `T_CHAR_US` in whole microseconds, at least one (R10; the rounding: log 8). -/
def charTimeUs (p : Params) : Nat := max 1 (p.charBits * 1000000 / p.baud)

/-- A tick in whole microseconds, at least one: what waiting for a tick costs (log 8). -/
def tickTimeUs (p : Params) : Nat := max 1 p.tickUs

/-- `k × 2 × T_CHAR_US` microseconds in the 16-bit timer (R321; the rounding and the width: log 17). -/
def backoffUs (p : Params) (k : Nat) : Word16 := BitVec.ofNat 16 (k * 2 * p.charBits * 1000000 / p.baud)

end Sys2Proof.Machine
end

