-- ==== Sys2Proof/Machine/Ops.lean ====
section
/-! DEFINITION. The named operations every meaning is built from: free values, payload buffers, the device's callbacks,
the silent reversion and the break entry of a slave (what this hardware has for exceptions, 60_exceptions R347, R355),
and the prologue and epilogue of the master's operations (42 R180). -/

namespace Sys2Proof.Machine

/-! ## Free values (R12 `draw`, log 3) -/

/-- One free byte: the oldest supplied draw, or `Config.freeByte` of the counter. -/
def Free.draw (f : Free) : Byte × Free :=
  match f.queue with
  | b :: rest => (b, { f with queue := rest })
  | [] => (Config.freeByte f.count, { f with count := f.count + 1 })

/-- Several free bytes, the first drawn first. -/
def Free.drawList : Nat → Free → List Byte × Free
  | 0, f => ([], f)
  | n + 1, f => (f.draw.1 :: (Free.drawList n f.draw.2).1, (Free.drawList n f.draw.2).2)

/-- A free member of a list (43 R233, R234 "pick any"); none of the empty list. -/
def Free.pick {α : Type} (xs : List α) (f : Free) : Option α × Free :=
  match xs with
  | [] => (none, f)
  | _ :: _ => (xs[f.draw.1.toNat % xs.length]?, f.draw.2)

/-! ## Payload buffers (R70 d, R74, log 12) -/

/-- What an address that nothing has written reads as. DESIGN CHOICE (log 12). -/
def Memory.unwritten : Byte := 0

/-- The byte at an address. -/
def Memory.read : Memory → Nat → Byte
  | [], _ => Memory.unwritten
  | (b, w) :: rest, a => if a = b then w else Memory.read rest a

/-- Write one byte, keeping the canonical form. -/
def Memory.write (a : Nat) (v : Byte) : Memory → Memory
  | [] => if v = Memory.unwritten then [] else [(a, v)]
  | (b, w) :: rest =>
    if a < b then (if v = Memory.unwritten then (b, w) :: rest else (a, v) :: (b, w) :: rest)
    else if a = b then (if v = Memory.unwritten then rest else (a, v) :: rest)
    else (b, w) :: Memory.write a v rest

/-- Write a byte sequence from an address up. -/
def Memory.store (a : Nat) : List Byte → Memory → Memory
  | [], m => m
  | v :: vs, m => Memory.store (a + 1) vs (Memory.write a v m)

/-- Read `n` bytes from an address up. -/
def Memory.load (a : Nat) : Nat → Memory → List Byte
  | 0, _ => []
  | n + 1, m => Memory.read m a :: Memory.load (a + 1) n m

/-- The canonical form: addresses strictly rising, no entry equal to what an unlisted address reads as. -/
def Memory.wf : Memory → Bool
  | [] => true
  | [(_, w)] => w ≠ Memory.unwritten
  | (a, w) :: (b, v) :: rest => (w ≠ Memory.unwritten) && a < b && Memory.wf ((b, v) :: rest)

/-- Write the host's buffer. -/
def storeBuf (buf : BufRef) (bytes : List Byte) (s : State) : State :=
  { s with mem := Memory.store buf.toNat bytes s.mem }

/-- A buffer of `n` bytes whose contents the failed operation leaves unspecified: free bytes (R183, U8, log 13). -/
def spoilBuf (buf : BufRef) (n : Nat) (s : State) : State :=
  { s with free := (Free.drawList n s.free).2,
           mem := Memory.store buf.toNat (Free.drawList n s.free).1 s.mem }

/-! ## The device's callbacks (30_encoding R121, log 14) -/

/-- Note a callback. -/
def Device.note (c : Call) (d : Device) : Device := { d with calls := c :: d.calls }

/-- The catalog's entry of a class. -/
def Device.kind (d : Device) (cls : MsgClass) : SlotKind := d.catalog.get cls.toFin

/-- `init_transfer(message_type)`: the transfer starts at its first byte. -/
def Device.initTransfer (cls : MsgClass) (d : Device) : SlotKind × Device :=
  (d.kind cls, { d with pos := 0 }.note (.initTransfer cls))

/-- `store_byte(byte) -> more_expected`: more while the slot's length is not reached (R267, log 14). -/
def Device.storeByte (cls : MsgClass) (b : Byte) (d : Device) : Bool × Device :=
  (match d.kind cls with
    | .receive more => d.pos < more
    | .transmit _ => false
    | .ignore => false,
   { d with pos := d.pos + 1 }.note (.storeByte b))

/-- `fetch_byte() -> byte_or_none`: a byte of the device's own until the slot's length is reached (R276). The byte is the
device's business, so it is free (R74, U18, log 14). -/
def Device.fetchByte (cls : MsgClass) (f : Free) (d : Device) : Option Byte × Free × Device :=
  match d.kind cls with
  | .transmit len =>
    if d.pos < len then
      (some f.draw.1, f.draw.2, { d with pos := d.pos + 1 }.note (.fetchByte (some f.draw.1)))
    else (none, f, d.note (.fetchByte none))
  | .receive _ => (none, f, d.note (.fetchByte none))
  | .ignore => (none, f, d.note (.fetchByte none))

/-! ## A slave's shared operations -/

/-- Note a callback of the slave's device. -/
def Slave.note (c : Call) (sl : Slave) : Slave := { sl with dev := sl.dev.note c }

/-- `dev.enable_transmit_empty_signal(on); S.tx_en <- on` (R30). -/
def Slave.signalTxe (on : Bool) (sl : Slave) : Slave :=
  { sl with txEn := on, dev := sl.dev.note (.enableTransmitEmptySignal on) }

/-- Silent reversion (60_exceptions R347): the one thing a slave does on any failure. -/
def Slave.revert (sl : Slave) : Slave := { sl with st := .waitBreak }

/-- BREAK in any state (44 R262, 60_exceptions R355): nothing is saved, control goes to `RxHeader`. -/
def Slave.onBreak (sl : Slave) : Slave :=
  if sl.txEn then { sl with st := .rxHeader, crc := Config.seed, idx := 0 }.signalTxe false
  else { sl with st := .rxHeader, crc := Config.seed, idx := 0 }

/-- The reset of a slave (70_reset R391): what is persisted or configured stays. -/
def Slave.restart (sl : Slave) : Slave :=
  Slave.afterReset ⟨sl.eepromAddr, sl.devType, sl.fwVer, sl.hwRev, sl.dev.catalog⟩

/-- What a handler leaves: the slave, the free values, and the byte handed to the transmitter, if any (R78). -/
structure Reaction where
  slave : Slave
  free : Free
  tx : Option Byte
  deriving DecidableEq, Repr

/-- A handler that transmits nothing and draws nothing. -/
def Reaction.quiet (sl : Slave) (f : Free) : Reaction := ⟨sl, f, none⟩

/-! ## The master's prologue and epilogue (42 R180) -/

/-- Change the master. -/
def State.updMaster (g : Master → Master) (s : State) : State := { s with master := g s.master }

/-- Whether a mutex triple was registered (R40, R181). -/
def Master.hasMutex (m : Master) : Bool :=
  match m.transport with
  | some t => t.mutex
  | none => false

/-- `T.lock()`; nothing where no mutex was registered (R180). -/
def lockMutex (s : State) : State :=
  s.updMaster fun m => if m.hasMutex then { m with mutexDepth := m.mutexDepth + 1 } else m

/-- `T.unlock()`. -/
def unlockMutex (s : State) : State :=
  s.updMaster fun m => if m.hasMutex then { m with mutexDepth := m.mutexDepth - 1 } else m

/-- Return a result code to the host (R117, R340). -/
def report (r : ResultCode) (s : State) : State := s.updMaster fun m => { m with result := some r }

/-- Write `failed_address` (R351). -/
def setFailed (a : Addr) (s : State) : State := s.updMaster fun m => { m with failedAddress := a }

/-- A public operation (R180): `NOT_INITIALIZED` first (R348), then the refusals of U5 and U7, then the body between lock
and unlock. -/
def masterOp (bad : Option Refusal) (body : State → ResultCode × State) (s : State) :
    Host.Outcome State Fault Refusal :=
  if s.master.initialized = false then .next (report .notInitialized s)
  else if s.master.autoPasses.isSome then .refused .operationInProgress
  else
    match bad with
    | some r => .refused r
    | none => .next (report (body (lockMutex s)).1 (unlockMutex (body (lockMutex s)).2))

end Sys2Proof.Machine
end

