-- ==== Sys2Proof/Machine/SlaveFsm.lean ====
section
/-! DEFINITION. The slave transceiver state machine (44_slave_fsm): frame alignment, header, reception, dispatch,
transmission, and the renumber arbitration (45_slave_renum). Every (state, event) pair of R281 has its case. -/

namespace Sys2Proof.Machine

/-! ## Random filler (R272) -/

/-- Five free bytes, the first drawn first. -/
def drawFiller (f : Free) : Vector Byte 5 × Free :=
  (fiveOf (Free.drawList 5 f).1, (Free.drawList 5 f).2)

/-! ## The renumber arbitration (45_slave_renum) -/

/-- The new address of a RENUM request: bits 4-0 of request byte 1; a free address where bits 7-5 are not zero
(R110, R321, U6, log 15). -/
def renumTargetOf (b : Byte) (f : Free) : Addr × Free :=
  if b < 32 then (b.setWidth 5, f) else (f.draw.1.setWidth 5, f.draw.2)

/-- RENUM dispatch (R321). -/
def dispatchRenum (p : Params) (sl : Slave) (f : Free) : Reaction :=
  let target := renumTargetOf sl.ctrlReq[1] f
  let filler := drawFiller target.2
  let k := filler.2.draw
  .quiet
    { sl with
      renumTarget := target.1
      ctrlResp := filler.1
      renumTimer := backoffUs p (k.1.toNat % 32)
      st := .waitRenumTimer }
    k.2

/-- Start of the confirmation (R324). -/
def startConfirm (p : Params) (sl : Slave) (f : Free) : Reaction :=
  ⟨{ sl with
      crc := crc8 p Config.seed sl.ctrlResp[0]
      lastTx := sl.ctrlResp[0]
      idx := 1
      st := .txRenumConf }, f, some sl.ctrlResp[0]⟩

/-- TICK in `WaitRenumTimer` (R322). -/
def tickRenum (p : Params) (sl : Slave) (f : Free) : Reaction :=
  if p.tickUs < sl.renumTimer.toNat then
    .quiet { sl with renumTimer := BitVec.ofNat 16 (sl.renumTimer.toNat - p.tickUs) } f
  else startConfirm p { sl with renumTimer := 0 } f

/-- Hand the next byte of the confirmation to the transmitter (R325). -/
def sendConfirm (x : Byte) (sl : Slave) (f : Free) : Reaction :=
  ⟨{ sl with lastTx := x, idx := sl.idx + 1 }, f, some x⟩

/-- The commit (R326): the only place `own_addr` and the persisted address are written. -/
def commitRenum (sl : Slave) : Slave :=
  { sl with ownAddr := sl.renumTarget, eepromAddr := sl.renumTarget, st := .waitBreak }.note
    (.persistAddress sl.renumTarget)

/-- RX in `TxRenumConf` (R325, R326): compare the echo, then the next byte, the CRC, or the commit. -/
def rxRenumConf (p : Params) (b : Byte) (sl : Slave) (f : Free) : Reaction :=
  if b ≠ sl.lastTx then .quiet sl.revert f
  else if sl.idx = 6 then .quiet (commitRenum sl) f
  else if h : sl.idx.toNat < 5 then
    sendConfirm sl.ctrlResp[sl.idx.toNat] { sl with crc := crc8 p sl.crc sl.ctrlResp[sl.idx.toNat] } f
  else sendConfirm sl.crc sl f

/-! ## Header (R264 to R266) -/

/-- The HEADER byte (R264). -/
def rxHeaderByte (p : Params) (b : Byte) (sl : Slave) : Slave :=
  { sl with hdr := b, crc := crc8 p sl.crc b, idx := 1 }

/-- Classification of a data header by the device (R266). -/
def classifyHeader (cls : MsgClass) (sl : Slave) : Slave :=
  let answer := sl.dev.initTransfer cls
  let sl := { sl with msgClass := cls, dev := answer.2 }
  match answer.1 with
  | .receive _ => { sl with st := .rxMsg, crc := Config.seed }
  | .transmit _ => { sl with st := .txMsg, crc := Config.seed }.signalTxe true
  | .ignore => sl.revert

/-- The HEADER_CRC byte (R265). -/
def rxHeaderCrc (p : Params) (b : Byte) (sl : Slave) : Slave :=
  let sl := { sl with crc := crc8 p sl.crc b }
  if sl.crc ≠ 0 then sl.revert
  else if headerAddr sl.hdr ≠ sl.ownAddr then sl.revert
  else if headerClass sl.hdr = Config.cmdClass then
    { sl with st := .rxCtrlMsg, len := 5, idx := 0, crc := Config.seed }
  else classifyHeader (headerClass sl.hdr) sl

/-! ## Reception (R267 to R270) -/

/-- A payload byte of a write (R267). -/
def rxPayload (p : Params) (b : Byte) (sl : Slave) : Slave :=
  let answer := sl.dev.storeByte sl.msgClass b
  let sl := { sl with crc := crc8 p sl.crc b, dev := answer.2 }
  if answer.1 then sl else { sl with st := .checkRxCrc }

/-- A request byte of a command (R268). -/
def rxRequest (p : Params) (b : Byte) (sl : Slave) : Slave :=
  let sl := { sl with crc := crc8 p sl.crc b, ctrlReq := sl.ctrlReq.setIfInBounds sl.idx.toNat b, idx := sl.idx + 1 }
  if sl.idx = 5 then { sl with st := .checkRxCtrlCrc } else sl

/-- The trailing CRC of a write (R269). -/
def rxPayloadCrc (p : Params) (b : Byte) (sl : Slave) : Slave :=
  let sl := { sl with crc := crc8 p sl.crc b }
  if sl.crc ≠ 0 then sl.revert
  else ({ sl with st := .txAck }.note (.endTransfer sl.msgClass)).signalTxe true

/-- A response is ready: send it from its first byte with a fresh CRC run (R271, R273). -/
def answerWith (resp : Vector Byte 5) (sl : Slave) : Slave :=
  { sl with ctrlResp := resp, idx := 0, crc := Config.seed, st := .txCtrlResp }.signalTxe true

/-- PROBE dispatch (R271). -/
def dispatchProbe (sl : Slave) (f : Free) : Reaction :=
  .quiet (answerWith (drawFiller f).1 sl) (drawFiller f).2

/-- INQUIRE dispatch (R273); the button is a free bit (D16). -/
def dispatchInquire (sl : Slave) (f : Free) : Reaction :=
  let button := f.draw.1.getLsbD 0
  .quiet (answerWith (encodeInquire sl.devType sl.fwVer sl.hwRev button) (sl.note (.readIndicator button))) f.draw.2

/-- The trailing CRC of a command request, and the dispatch (R270, R274). -/
def rxRequestCrc (p : Params) (b : Byte) (sl : Slave) (f : Free) : Reaction :=
  let sl := { sl with crc := crc8 p sl.crc b }
  if sl.crc ≠ 0 then .quiet sl.revert f
  else if sl.ctrlReq[0] = Config.subProbe then dispatchProbe sl f
  else if sl.ctrlReq[0] = Config.subRenum then dispatchRenum p sl f
  else if sl.ctrlReq[0] = Config.subInquire then dispatchInquire sl f
  else .quiet sl.revert f

/-! ## Transmission (R275 to R277) -/

/-- TXE in `TxAck` (R275). -/
def txAckByte (sl : Slave) (f : Free) : Reaction :=
  ⟨{ sl with st := .waitBreak }.signalTxe false, f, some Config.ack⟩

/-- TXE in `TxMsg` (R276). -/
def txPayload (p : Params) (sl : Slave) (f : Free) : Reaction :=
  let answer := sl.dev.fetchByte sl.msgClass f
  let sl := { sl with dev := answer.2.2 }
  match answer.1 with
  | some b => ⟨{ sl with crc := crc8 p sl.crc b }, answer.2.1, some b⟩
  | none =>
    ⟨({ sl with st := .waitBreak }.signalTxe false).note (.endTransfer sl.msgClass), answer.2.1, some sl.crc⟩

/-- TXE in `TxCtrlResp` (R277). -/
def txResponse (p : Params) (sl : Slave) (f : Free) : Reaction :=
  if h : sl.idx.toNat < 5 then
    ⟨{ sl with crc := crc8 p sl.crc sl.ctrlResp[sl.idx.toNat], idx := sl.idx + 1 }, f, some sl.ctrlResp[sl.idx.toNat]⟩
  else ⟨{ sl with st := .waitBreak }.signalTxe false, f, some sl.crc⟩

/-! ## The handlers (R261, R281) -/

/-- `RX(b)` (R281, second column). -/
def onRx (p : Params) (b : Byte) (sl : Slave) (f : Free) : Reaction :=
  match sl.st with
  | .waitBreak => .quiet sl f
  | .rxHeader => .quiet (if sl.idx = 0 then rxHeaderByte p b sl else rxHeaderCrc p b sl) f
  | .rxMsg => .quiet (rxPayload p b sl) f
  | .rxCtrlMsg => .quiet (rxRequest p b sl) f
  | .checkRxCrc => .quiet (rxPayloadCrc p b sl) f
  | .checkRxCtrlCrc => rxRequestCrc p b sl f
  | .txAck => .quiet sl f
  | .txMsg => .quiet sl f
  | .txCtrlResp => .quiet sl f
  | .waitRenumTimer => .quiet sl.revert f
  | .txRenumConf => rxRenumConf p b sl f

/-- `TXE` (R281, third column). -/
def onTxe (p : Params) (sl : Slave) (f : Free) : Reaction :=
  match sl.st with
  | .waitBreak => .quiet sl f
  | .rxHeader => .quiet sl f
  | .rxMsg => .quiet sl f
  | .rxCtrlMsg => .quiet sl f
  | .checkRxCrc => .quiet sl f
  | .checkRxCtrlCrc => .quiet sl f
  | .txAck => txAckByte sl f
  | .txMsg => txPayload p sl f
  | .txCtrlResp => txResponse p sl f
  | .waitRenumTimer => .quiet sl f
  | .txRenumConf => .quiet sl f

/-- `TICK` (R281, fourth column). -/
def onTick (p : Params) (sl : Slave) (f : Free) : Reaction :=
  match sl.st with
  | .waitBreak => .quiet sl f
  | .rxHeader => .quiet sl f
  | .rxMsg => .quiet sl f
  | .rxCtrlMsg => .quiet sl f
  | .checkRxCrc => .quiet sl f
  | .checkRxCtrlCrc => .quiet sl f
  | .txAck => .quiet sl f
  | .txMsg => .quiet sl f
  | .txCtrlResp => .quiet sl f
  | .waitRenumTimer => tickRenum p sl f
  | .txRenumConf => .quiet sl f

/-- One event at one slave, to completion (R261). -/
def onEvent (p : Params) (e : Event) (sl : Slave) (f : Free) : Reaction :=
  match e with
  | .brk => .quiet sl.onBreak f
  | .rx b => onRx p b sl f
  | .txe => onTxe p sl f
  | .tick => onTick p sl f

end Sys2Proof.Machine
end

