-- ==== Sys2Proof/Machine/BusOps.lean ====
section
/-! DEFINITION. The bus medium and the master's transport (20_memory R75 to R79, R96; 60_exceptions R354): slots, breaks,
the read with its timeout, and one exchange. -/

namespace Sys2Proof.Machine

/-! ## Every slave reacts (R75) -/

/-- Run a handler at every slave in order; the free values pass from one to the next, and what is handed to a
transmitter is noted with the slave's place. -/
def reactAll (h : Nat → Slave → Free → Reaction) : Nat → List Slave → Free → List Slave × Free × List (Nat × Byte)
  | _, [], f => ([], f, [])
  | i, sl :: rest, f =>
    let r := h i sl f
    let more := reactAll h (i + 1) rest r.free
    (r.slave :: more.1, more.2.1, (r.tx.toList.map fun b => (i, b)) ++ more.2.2)

/-- Run a handler at every slave of the system. -/
def State.react (h : Nat → Slave → Free → Reaction) (s : State) : State :=
  let out := reactAll h 0 s.slaves s.free
  { s with slaves := out.1, free := out.2.1, bus := { s.bus with inFlight := s.bus.inFlight ++ out.2.2 } }

/-- Whether a slave's transmitter already holds a byte. -/
def Bus.holds (b : Bus) (i : Nat) : Bool := b.inFlight.any fun x => x.1 == i

/-- TXE at a slave: it occurs only while the slave enabled it and its transmitter can take a byte (R78, R352). -/
def txeIfFree (s : State) (i : Nat) (sl : Slave) (f : Free) : Reaction :=
  if sl.txEn && !s.bus.holds i then onTxe s.params sl f else .quiet sl f

/-- TXE to every slave that enabled it and whose transmitter is free (R78, R352). -/
def serveTxe (s : State) : State := s.react fun i sl f => txeIfFree s i sl f

/-- TICK to every slave (R352). -/
def tickAll (s : State) : State := s.react fun _ sl f => onTick s.params sl f

/-! ## A slot (R75, R76, R96) -/

/-- The line's byte: the AND of everything transmitted in the slot (R76). -/
def wiredAnd (b : Byte) (bs : List Byte) : Byte := bs.foldl (· &&& ·) b

/-- Take the disturbance of this slot. -/
def takeNoise (s : State) : Noise × State :=
  match s.bus.noise with
  | [] => (.clean, s)
  | n :: rest => (n, { s with bus := { s.bus with noise := rest } })

/-- What the master's receiver adds to its stream (R79). -/
def State.hear (bs : List Byte) (s : State) : State := { s with bus := { s.bus with stream := s.bus.stream ++ bs } }

/-- The master's receiver hears a free byte (R96). -/
def hearFree (s : State) : State := { s with free := s.free.draw.2 }.hear [s.free.draw.1]

/-- RX of one byte at every slave (R75). -/
def rxAll (b : Byte) (s : State) : State := s.react fun _ sl f => onRx s.params b sl f

/-- RX of a free byte, each slave its own (R96). -/
def rxGarbled (s : State) : State := s.react fun _ sl f => onRx s.params f.draw.1 sl f.draw.2

/-- The line carries a byte: every node hears it, as far as the slot is not disturbed. -/
def deliver (b : Byte) (s : State) : State :=
  let n := takeNoise s
  match n.1 with
  | .clean => rxAll b (n.2.hear [b])
  | .flipAll mask => rxAll (b ^^^ mask) (n.2.hear [b ^^^ mask])
  | .flipAtMaster mask => rxAll b (n.2.hear [b ^^^ mask])
  | .lostAtMaster => rxAll b n.2
  | .garbled => rxGarbled (hearFree n.2)

/-- The oldest byte of each transmitter that is not among those seen. -/
def firstBytes : List Nat → List (Nat × Byte) → List Byte
  | _, [] => []
  | seen, x :: xs => if seen.contains x.1 then firstBytes seen xs else x.2 :: firstBytes (x.1 :: seen) xs

/-- The bytes that wait behind the oldest one of their transmitter. -/
def laterBytes : List Nat → List (Nat × Byte) → List (Nat × Byte)
  | _, [] => []
  | seen, x :: xs => if seen.contains x.1 then x :: laterBytes seen xs else laterBytes (x.1 :: seen) xs

/-- The bytes the slaves' transmitters send in this slot: each its oldest, so that a slave's bytes go out whole and in
order (R78). -/
def Bus.pending (b : Bus) : List Byte := firstBytes [] b.inFlight

/-- What a transmitter holds behind the byte it sends in this slot. -/
def Bus.queued (b : Bus) : List (Nat × Byte) := laterBytes [] b.inFlight

/-- The bytes of this slot, if any, are heard and leave the transmitters (R76, R78). -/
def carry (out : List Byte) (s : State) : Option State :=
  match out with
  | [] => none
  | b :: bs => some (deliver (wiredAnd b bs) { s with bus := { s.bus with inFlight := s.bus.queued } })

/-- One slot with the master's byte, if it sends one: bytes waiting to be sent are fetched, then the line carries the AND of
all of them; a slot nobody uses is one tick (R354: RX before TXE, TICK last). DESIGN CHOICE (log 6): there is no turnaround,
a slave's first byte is in the slot after the one that made it answer (R408, N13). -/
def slot (mb : Option Byte) (s : State) : State :=
  match carry (mb.toList ++ (serveTxe s).bus.pending) (serveTxe s) with
  | some s' => s'
  | none => tickAll (serveTxe s)

/-! ## A break (R77) -/

/-- The break reaches every slave as BREAK and the master's receiver as `BREAK_ECHO_BYTES` free bytes (R77, U12); what is
in flight stays in flight (log 9). -/
def takeBreak (s : State) : State :=
  let echo := Free.drawList s.params.breakEchoBytes.val s.free
  { s with
    free := echo.2
    slaves := s.slaves.map Slave.onBreak
    bus := { s.bus with breakOn := false, stream := echo.1 } }

/-- What stands at the transmitters when a break is raised is heard before it, in one slot. DESIGN CHOICE (R77, N15; log 9):
a byte that waits behind another, and one that a confirming slave hands over in answer to this slot, stays in flight. -/
def flush (s : State) : State := (carry s.bus.pending s).getD s

/-- Signal a break. DESIGN CHOICE (R77, R330, N15; log 9): a byte still in flight now is not withdrawn, it shares the first
slot after the break. -/
def raiseBreak (s : State) : State := { flush s with bus := { (flush s).bus with breakOn := true } }

/-- `T.send_break()` (R120). -/
def sendBreak (s : State) : State := takeBreak (raiseBreak s)

/-- One turn of the bus on its own: the break being signalled, else a slot the master does not use. -/
def busTurn (s : State) : State := if s.bus.breakOn then takeBreak s else slot none s

/-! ## The transport (R79, R120, R192) -/

/-- `T.write(bytes)`: one slot a byte. -/
def sendBytes : List Byte → State → State
  | [], s => s
  | b :: bs, s => sendBytes bs (slot (some b) s)

/-- Nothing will move on the bus until the host acts: no byte at or wanted by a transmitter, no backoff running. -/
def settled (s : State) : Bool :=
  !s.bus.breakOn && s.bus.inFlight.isEmpty && s.slaves.all fun sl => !sl.txEn && sl.st ≠ .waitRenumTimer

/-- What the next turn costs of the read's time: a character where a byte is sent, else a tick (log 8). -/
def turnCost (s : State) : Nat :=
  if !s.bus.inFlight.isEmpty || s.slaves.any (·.txEn) then charTimeUs s.params else tickTimeUs s.params

/-- Whether the read has its count (R79). -/
def enough (limit : Option Nat) (s : State) : Bool :=
  match limit with
  | some e => e ≤ s.bus.stream.length
  | none => false

/-- Let the bus move until `limit` bytes were heard, the time is used up, or nothing moves any more (R79, R192). Every turn
costs at least 1 µs, so `fuel` equal to the time never ends it first. -/
def await (limit : Option Nat) : Nat → Nat → State → State
  | 0, _, s => s
  | fuel + 1, time, s =>
    if enough limit s then s
    else if settled s then s
    else if time < turnCost s then s
    else await limit fuel (time - turnCost s) (busTurn s)

/-- Await within the read timeout (R34, R192). -/
def awaitReply (limit : Option Nat) (s : State) : State :=
  await limit s.master.timeoutUs.toNat s.master.timeoutUs.toNat s

/-- A break and the bytes of a frame on the wire (R100). -/
def transmit (f : List Byte) (s : State) : State := sendBytes f (sendBreak s)

/-- `T.read`'s bytes, kept with the frame in the exchange buffers (R39, R79). -/
def keepExchange (f : List Byte) (e : Nat) (s : State) : State :=
  s.updMaster fun m =>
    { m with txbuf := f, rxbuf := s.bus.stream.take e, n := (s.bus.stream.take e).length }

/-- One exchange (R79): break, write, read of at most `e` bytes. -/
def exchange (f : List Byte) (e : Nat) (s : State) : State :=
  keepExchange f e (awaitReply (some e) (transmit f s))

/-- A frame arrives on the wire and whoever it addresses replies, heard for at most the read timeout (log 10). -/
def frameOnWire (f : List Byte) (s : State) : State := awaitReply none (transmit f s)

/-- One event from outside at a slave (R261, R352). -/
def eventTo (s : State) (e : Event) (i : Nat) (sl : Slave) (f : Free) : Reaction :=
  match e with
  | .brk => onEvent s.params .brk sl f
  | .rx b => onEvent s.params (.rx b) sl f
  | .txe => txeIfFree s i sl f
  | .tick => onEvent s.params .tick sl f

/-- One event at one slave from outside; an absent place reaches nobody. -/
def eventAt (k : Nat) (e : Event) (s : State) : State :=
  s.react fun i sl f => if i = k then eventTo s e i sl f else .quiet sl f

end Sys2Proof.Machine
end

