-- ==== Sys2Proof/Machine/Master.lean ====
section
/-! DEFINITION. The master's operations other than AUTO_CONFIG (42_master_exchange): the three exchanges, directory and
mirror table, renumbering and checking, and their meanings. -/

namespace Sys2Proof.Machine

/-! ## The directory and the tables (10_state R35, R37) -/

/-- `M.dir[a]`. -/
def Master.decl (m : Master) (a : Addr) : DirEntry := m.dir.get a.toFin

/-- `M.dir[a].slot[c]`. -/
def Master.slotOf (m : Master) (a : Addr) (c : MsgClass) : Slot := (m.decl a).slots.get c.toFin

/-- `M.res[a]`. -/
def Master.resOf (m : Master) (a : Addr) : ScanResult := m.res.get a.toFin

/-- `M.rtype[a]`. -/
def Master.typeOf (m : Master) (a : Addr) : Word16 := m.rtype.get a.toFin

/-- `M.dir[a] <- e`. -/
def Master.setDecl (a : Addr) (e : DirEntry) (m : Master) : Master := { m with dir := m.dir.set a.toNat e a.isLt }

/-- `M.res[a] <- r`. -/
def Master.setRes (a : Addr) (r : ScanResult) (m : Master) : Master := { m with res := m.res.set a.toNat r a.isLt }

/-- `M.rtype[a] <- t`. -/
def Master.setType (a : Addr) (t : Word16) (m : Master) : Master := { m with rtype := m.rtype.set a.toNat t a.isLt }

/-- The usable addresses 1 to 30, ascending (R71). -/
def usableAddrs : List Addr := (List.range Config.addrMax).map fun k => BitVec.ofNat 5 (k + Config.addrMin)

/-! ## The three exchanges (R182 to R184) -/

/-- The count SEND_MESSAGE asks for (R182). -/
def sendCount (p : Params) (len : Nat) : Nat := hdrWin p + len + 2

/-- The count RECEIVE_MESSAGE asks for (R183). -/
def receiveCount (p : Params) (len : Nat) : Nat := hdrWin p + len + 1

/-- The count SEND_CMD_MESSAGE asks for (R184): 15 at the default. -/
def commandCount (p : Params) : Nat := hdrWin p + 12

/-- `send_message`'s body (R182). -/
def sendBody (addr : Addr) (cls : MsgClass) (payload : List Byte) (s : State) : ResultCode × State :=
  let f := buildWriteFrame s.params addr cls payload
  let e := sendCount s.params payload.length
  let s' := exchange f e s
  (sendVerdict s.params f s'.master.rxbuf e, s')

/-- `receive_message`'s body (R183): the caller's buffer gets the payload on OK and is unspecified otherwise (U8). -/
def receiveBody (addr : Addr) (cls : MsgClass) (len : Byte) (buf : BufRef) (s : State) : ResultCode × State :=
  let f := buildReadRequest s.params addr cls
  let e := receiveCount s.params len.toNat
  let s' := exchange f e s
  let r := replyVerdict s.params f.length (hdrWin s.params) e s'.master.rxbuf
  (r, if r = .ok then storeBuf buf ((replyWindow (hdrWin s.params) e s'.master.rxbuf).take len.toNat) s'
      else spoilBuf buf len.toNat s')

/-- One command exchange (R184): the result, the response window's five bytes, the state. -/
def command (addr : Addr) (request : Vector Byte 5) (s : State) : ResultCode × Vector Byte 5 × State :=
  let f := buildCmdFrame s.params addr request
  let e := commandCount s.params
  let s' := exchange f e s
  (replyVerdict s.params f.length (hdrWin s.params + 6) e s'.master.rxbuf,
   fiveOf (replyWindow (hdrWin s.params + 6) e s'.master.rxbuf), s')

/-- `send_cmd_message`'s body (R184): `response_out` gets the response on OK and is unspecified otherwise (U8). -/
def commandBody (addr : Addr) (request : Vector Byte 5) (out : BufRef) (s : State) : ResultCode × State :=
  let c := command addr request s
  (c.1, if c.1 = .ok then storeBuf out c.2.1.toList c.2.2 else spoilBuf out Config.cmdLen c.2.2)

/-- PROBE then INQUIRE (R191): the first code that is not OK, or OK, and the reported type. -/
def probeInquire (addr : Addr) (s : State) : ResultCode × Word16 × State :=
  let probe := command addr probeRequest s
  if probe.1 = .ok then
    let inquire := command addr inquireRequest probe.2.2
    (inquire.1, inquireType inquire.2.1, inquire.2.2)
  else (probe.1, 0, probe.2.2)

/-! ## DEFINE_DEVICES, DEFINE_MIRRORING, MIRROR_TICK (R186 to R188) -/

/-- Every entry's valid bit cleared (R186 "cleared first"). -/
def Master.clearDir (m : Master) : Master := { m with dir := m.dir.map fun e => { e with valid := false } }

/-- Declare one device (R186). -/
def Master.declare (m : Master) (d : Decl) : Master := m.setDecl d.addr ⟨true, d.devType, d.slots⟩

/-- `define_devices`'s body (R186). -/
def defineDevicesBody (decls : List Decl) (s : State) : ResultCode × State :=
  (.ok, s.updMaster fun m => decls.foldl Master.declare m.clearDir)

/-- Whether the directory declares this slot of this address (R35). -/
def Master.declares (m : Master) (addr : Addr) (c : MsgClass) : Bool := (m.decl addr).valid && (m.slotOf addr c).used

/-- R187's precondition on the directory: a declared address, a used slot 0 to 6, a buffer that holds the slot. -/
def Master.mirrorable (m : Master) (addr : Addr) (c : MsgClass) (size : Byte) : Bool :=
  m.declares addr c && c ≠ Config.cmdClass && decide ((m.slotOf addr c).len ≤ size)

/-- A mirror entry as installed (R187): the ticker starts at 0 (D17). -/
def installMirror (d : MirrorDef) : MirrorEntry := ⟨d.addr, d.slot, d.buf, d.size, d.period, d.phase, 0⟩

/-- What makes a model refuse a mirror list (R187, R10 `MIRROR_MAX`, U7). -/
def mirrorRefusal (defs : List MirrorDef) (s : State) : Option Refusal :=
  match checkMirrorDefs defs with
  | some e => some (.operandOutOfRange e)
  | none =>
    if defs.all fun d => s.master.mirrorable d.addr d.slot d.size then
      match s.params.mirrorMax with
      | some k => if k < defs.length then some .mirrorTableFull else none
      | none => none
    else some .mirrorNotDeclared

/-- `define_mirroring`'s body (R187). -/
def defineMirroringBody (defs : List MirrorDef) (s : State) : ResultCode × State :=
  (.ok, s.updMaster fun m => { m with mirror := defs.map installMirror })

/-- An entry after the call: the ticker one on, modulo the period (R188). -/
def advanceEntry (e : MirrorEntry) : MirrorEntry := { e with ticker := (e.ticker + 1) % e.period }

/-- Whether an entry fires on this call (R188). -/
def fires (e : MirrorEntry) : Bool := e.ticker = e.phase

/-- The transfer of an entry, in the direction its slot declares and with the slot's length as it is declared now (R188;
log 26). -/
def mirrorTransfer (e : MirrorEntry) (s : State) : ResultCode × State :=
  let slot := s.master.slotOf e.addr e.slot
  match slot.dir with
  | .m2s => sendBody e.addr e.slot (Memory.load e.buf.toNat slot.len.toNat s.mem) s
  | .s2m => receiveBody e.addr e.slot slot.len e.buf s

/-- Keep the first failure and its address (R188, R351). -/
def noteFailure (first : ResultCode) (addr : Addr) (out : ResultCode × State) : ResultCode × State :=
  if first = .ok ∧ out.1 ≠ .ok then (out.1, setFailed addr out.2) else (first, out.2)

/-- The transfers of the entries that fire, in table order, whatever fails (R188, D17). -/
def mirrorPass : List MirrorEntry → ResultCode → State → ResultCode × State
  | [], first, s => (first, s)
  | e :: es, first, s =>
    if fires e then
      mirrorPass es (noteFailure first e.addr (mirrorTransfer e s)).1 (noteFailure first e.addr (mirrorTransfer e s)).2
    else mirrorPass es first s

/-- `mirror_tick`'s body (R188): every ticker moves, then the transfers; no transfer reads a ticker. -/
def mirrorTickBody (s : State) : ResultCode × State :=
  mirrorPass s.master.mirror .ok (s.updMaster fun m => { m with mirror := m.mirror.map advanceEntry })

/-- A table with an entry that names an address or a slot no longer declared: "`refuse` the `mirror_tick` call" (U13; R188,
R401; log 26). -/
def staleRefusal (s : State) : Option Refusal :=
  if s.master.mirror.all fun e => s.master.declares e.addr e.slot then none else some .staleMirrorEntry

/-! ## RENUM_ID and CHECK_CONFIG (R189, R190) -/

/-- Attempts of `renum_id` until one is OK; `last` is the code of the attempt before (R189, D18). -/
def renumAttempts (old new : Addr) : Nat → ResultCode → State → ResultCode × State
  | 0, last, s => (last, s)
  | n + 1, _, s =>
    let c := command old (renumRequest new) s
    if c.1 = .ok then (.ok, c.2.2) else renumAttempts old new n c.1 c.2.2

/-- `renum_id(old, new)` (R189). -/
def renumBody (old new : Addr) (s : State) : ResultCode × State := renumAttempts old new Config.renumRetries .timeout s

/-- `check_config` over a list of addresses (R190). -/
def checkAddrs : List Addr → State → ResultCode × State
  | [], s => (.ok, s)
  | a :: rest, s =>
    if (s.master.decl a).valid then
      let c := probeInquire a s
      if c.1 ≠ .ok then (c.1, setFailed a c.2.2)
      else if c.2.1 ≠ (s.master.decl a).devType then (.typeConflict, setFailed a c.2.2)
      else checkAddrs rest c.2.2
    else checkAddrs rest s

/-- `check_config`'s body (R190). -/
def checkConfigBody (s : State) : ResultCode × State := checkAddrs usableAddrs s

/-! ## The meanings -/

/-- INIT (R181): the transport is registered and nothing else is touched; refused while an operation runs (U5). -/
def execInit (mutex : Bool) (s : State) : Host.Outcome State Fault Refusal :=
  if s.master.autoPasses.isSome then .refused .operationInProgress
  else .next (report .ok (s.updMaster fun m => { m with transport := some ⟨mutex⟩, initialized := true }))

/-- Refuse a payload longer than `MAX_PAYLOAD` (R116, U7). -/
def tooLong (s : State) (len : Nat) : Option Refusal :=
  if s.params.maxPayload < len then some .payloadTooLong else none

/-- The refusals of a data exchange: its class, then its length (R116, U7). -/
def dataRefusal (cls : MsgClass) (len : Nat) (s : State) : Option Refusal :=
  ((checkClass cls).map Refusal.operandOutOfRange).or (tooLong s len)

/-- SEND_MESSAGE (R182). -/
def execSendMessage (addr : Addr) (cls : MsgClass) (payload : List Byte) (s : State) :
    Host.Outcome State Fault Refusal :=
  masterOp (dataRefusal cls payload.length s) (sendBody addr cls payload) s

/-- RECEIVE_MESSAGE (R183). -/
def execReceiveMessage (addr : Addr) (cls : MsgClass) (length : Byte) (buf : BufRef) (s : State) :
    Host.Outcome State Fault Refusal :=
  masterOp (dataRefusal cls length.toNat s) (receiveBody addr cls length buf) s

/-- SEND_CMD_MESSAGE (R184). -/
def execSendCmdMessage (addr : Addr) (request : Vector Byte 5) (out : BufRef) (s : State) :
    Host.Outcome State Fault Refusal :=
  masterOp none (commandBody addr request out) s

/-- Whether every slot of a declaration is within `MAX_PAYLOAD` (R35). -/
def declFits (p : Params) (d : Decl) : Bool := d.slots.toList.all fun slot => slot.len.toNat ≤ p.maxPayload

/-- What makes a model refuse a list of declarations (R186, R35, U7). -/
def declRefusal (decls : List Decl) (s : State) : Option Refusal :=
  match checkDecls decls with
  | some e => some (.operandOutOfRange e)
  | none => if decls.all (declFits s.params) then none else some .payloadTooLong

/-- DEFINE_DEVICES (R186). -/
def execDefineDevices (decls : List Decl) (s : State) : Host.Outcome State Fault Refusal :=
  masterOp (declRefusal decls s) (defineDevicesBody decls) s

/-- DEFINE_MIRRORING (R187). -/
def execDefineMirroring (defs : List MirrorDef) (s : State) : Host.Outcome State Fault Refusal :=
  masterOp (mirrorRefusal defs s) (defineMirroringBody defs) s

/-- MIRROR_TICK (R188). -/
def execMirrorTick (s : State) : Host.Outcome State Fault Refusal := masterOp (staleRefusal s) mirrorTickBody s

/-- RENUM_ID (R189). -/
def execRenumId (old new : Addr) (s : State) : Host.Outcome State Fault Refusal := masterOp none (renumBody old new) s

/-- CHECK_CONFIG (R190). -/
def execCheckConfig (s : State) : Host.Outcome State Fault Refusal := masterOp none checkConfigBody s

/-- The reserved selectors (R115, U7): the spec says that a model refuses them. -/
def execOpReserved10 (_ : State) : Host.Outcome State Fault Refusal := .refused .reservedSelector

/-- R115, U7. -/
def execOpReserved11 (_ : State) : Host.Outcome State Fault Refusal := .refused .reservedSelector

/-- R115, U7. -/
def execOpReserved12 (_ : State) : Host.Outcome State Fault Refusal := .refused .reservedSelector

/-- R115, U7. -/
def execOpReserved13 (_ : State) : Host.Outcome State Fault Refusal := .refused .reservedSelector

/-- R115, U7. -/
def execOpReserved14 (_ : State) : Host.Outcome State Fault Refusal := .refused .reservedSelector

/-- R115, U7. -/
def execOpReserved15 (_ : State) : Host.Outcome State Fault Refusal := .refused .reservedSelector

end Sys2Proof.Machine
end

