-- ==== Sys2Proof/Machine/AutoConfig.lean ====
section
/-! DEFINITION. AUTO_CONFIG (43_master_autoconfig): the scan, the three corrections, the return. One pass (from S1 to a
restart of S1 or to the return) is one step of the machine, because the rules bound the number of passes by nothing
(R238); `Master.autoPasses` holds the call in progress (log 1). -/

namespace Sys2Proof.Machine

/-! ## Initialise and scan (R231, R232) -/

/-- INITIALISE (R231); the call in progress has returned no code yet. DESIGN CHOICE (log 33): `rtype`, to which R231 gives no
value, is left as it was; it is read only where `res` is OK, and there the scan has written it. -/
def initAuto (s : State) : State :=
  s.updMaster fun m =>
    { m with
      res := Vector.replicate 32 .rescan
      renumbered := false
      swapped := false
      result := none
      autoPasses := some 0 }

/-- What the scan records for a result code and the type reported with it (R232). -/
def Master.record (a : Addr) (r : ResultCode) (t : Word16) (m : Master) : Master :=
  match r with
  | .ok => (m.setRes a .ok).setType a t
  | .noResponse => m.setRes a .noResponse
  | other => m.setRes a (.other other)

/-- Scan one address unless it is confirmed (R232). DESIGN CHOICE (log 34): after a restart every address whose result is
`other` is scanned again, as R232's condition says; R233's "only `c` and `f` are rescanned" would leave such a result where
several addresses are conflicted. -/
def scanAddr (s : State) (a : Addr) : State :=
  match s.master.resOf a with
  | .ok => s
  | .noResponse => s
  | .rescan => (probeInquire a s).2.2.updMaster (Master.record a (probeInquire a s).1 (probeInquire a s).2.1)
  | .other _ => (probeInquire a s).2.2.updMaster (Master.record a (probeInquire a s).1 (probeInquire a s).2.1)

/-- S1: scan 1 to 30 (R232). -/
def scanAll (s : State) : State := usableAddrs.foldl scanAddr s

/-! ## Resolve id conflicts (R233) -/

/-- A scan result that is neither OK nor no-response. -/
def ScanResult.isOther : ScanResult → Bool
  | .other _ => true
  | .rescan => false
  | .ok => false
  | .noResponse => false

/-- The lowest conflicted address (R233). -/
def Master.conflicted (m : Master) : Option Addr := usableAddrs.find? fun a => (m.resOf a).isOther

/-- The free addresses F (R233). -/
def Master.freeAddrs (m : Master) : List Addr := usableAddrs.filter fun a => m.resOf a = .noResponse

/-- How a step of the algorithm ends. -/
inductive Progress where
  /-- go on with the next step -/
  | onward
  /-- go back to S1 -/
  | restart
  /-- return this code -/
  | done (code : ResultCode)
  deriving DecidableEq, Repr

/-- Pick a free member of a list and go on with it (R233, R234). -/
def State.pick {α : Type} (xs : List α) (s : State) : Option α × State :=
  ((Free.pick xs s.free).1, { s with free := (Free.pick xs s.free).2 })

/-- Both addresses must be scanned again (R233). -/
def markRescan (c f : Addr) (s : State) : State :=
  s.updMaster fun m => { (m.setRes c .rescan).setRes f .rescan with renumbered := true }

/-- S2 (R233). -/
def resolveIds (s : State) : Progress × State :=
  match s.master.conflicted with
  | none => (.onward, s)
  | some c =>
    match s.pick s.master.freeAddrs with
    | (none, s1) => (.done .noFreeAddress, s1)
    | (some f, s1) =>
      let r := renumBody c f s1
      if r.1 = .ok then (.restart, markRescan c f r.2) else (.done r.1, r.2)

/-! ## Resolve extra and missing devices (R234) -/

/-- The extra addresses X (R234). -/
def Master.extras (m : Master) : List Addr := usableAddrs.filter fun a => m.resOf a = .ok && !(m.decl a).valid

/-- The missing addresses Y (R234). -/
def Master.missing (m : Master) : List Addr := usableAddrs.filter fun a => (m.decl a).valid && m.resOf a = .noResponse

/-- The table entry moves with the device (R234, D20). -/
def moveEntry (x y : Addr) (s : State) : State :=
  s.updMaster fun m =>
    { ((m.setRes y .ok).setType y (m.typeOf x)).setRes x .noResponse with renumbered := true }

/-- S3's loop (R234); it runs at most 30 times, as many as there are missing addresses. -/
def resolveMissing : Nat → State → Progress × State
  | 0, s => (.onward, s)
  | fuel + 1, s =>
    if s.master.extras.isEmpty || s.master.missing.isEmpty then (.onward, s)
    else
      match s.pick s.master.extras with
      | (none, s1) => (.onward, s1)
      | (some x, s1) =>
        match s1.pick s1.master.missing with
        | (none, s2) => (.onward, s2)
        | (some y, s2) =>
          let r := renumBody x y s2
          if r.1 = .ok then resolveMissing fuel (moveEntry x y r.2) else (.done r.1, r.2)

/-! ## Resolve type conflicts (R235) -/

/-- A declared address that answers with another type (R235). -/
def Master.mismatched (m : Master) (a : Addr) : Bool :=
  (m.decl a).valid && m.resOf a = .ok && m.typeOf a ≠ (m.decl a).devType

/-- A (R235). -/
def Master.conflictA (m : Master) : Option Addr := usableAddrs.find? m.mismatched

/-- B for a given A (R235): a higher address, itself conflicting, whose type is A's declared type. -/
def Master.partnerOf (m : Master) (a : Addr) : Option Addr :=
  usableAddrs.find? fun b => decide (a < b) && m.mismatched b && m.typeOf b = (m.decl a).devType

/-- The three renumbers of the swap, stopping at the first that fails (R123, R235). -/
def swapDevices (a b : Addr) (s : State) : ResultCode × State :=
  let r1 := renumBody a 0 s
  if r1.1 ≠ .ok then r1
  else
    let r2 := renumBody b a r1.2
    if r2.1 ≠ .ok then r2 else renumBody 0 b r2.2

/-- The in-memory type table follows the swap (R235). -/
def swapTypes (a b : Addr) (s : State) : State :=
  s.updMaster fun m => { (m.setType a (m.typeOf b)).setType b (m.typeOf a) with swapped := true }

/-- S4 (R235); every restart mends one declared address, so at most 30 happen. -/
def resolveTypes : Nat → State → Progress × State
  | 0, s => (.onward, s)
  | fuel + 1, s =>
    match s.master.conflictA with
    | none => (.onward, s)
    | some a =>
      match s.master.partnerOf a with
      | none => (.done .typeConflict, s)
      | some b =>
        let r := swapDevices a b s
        if r.1 = .ok then resolveTypes fuel (swapTypes a b r.2) else (.done r.1, r.2)

/-! ## Return, and the whole (R230, R236 to R238) -/

/-- S5 (R236). -/
def returnStatus (m : Master) : ResultCode :=
  if m.swapped then .typeConflictResolved else if m.renumbered then .idRenumbered else .ok

/-- The bound of the loops of S3 and S4: more rounds than there are usable addresses. -/
def autoRounds : Nat := Config.addrMax + 1

/-- S4, then S5. -/
def typesThenReturn (s : State) : Progress × State :=
  match resolveTypes autoRounds s with
  | (.onward, s1) => (.done (returnStatus s1.master), s1)
  | (.restart, s1) => (.restart, s1)
  | (.done r, s1) => (.done r, s1)

/-- S3, then the rest. -/
def missingThenOn (s : State) : Progress × State :=
  match resolveMissing autoRounds s with
  | (.onward, s1) => typesThenReturn s1
  | (.restart, s1) => (.restart, s1)
  | (.done r, s1) => (.done r, s1)

/-- S2, then the rest. -/
def idsThenOn (s : State) : Progress × State :=
  match resolveIds s with
  | (.onward, s1) => missingThenOn s1
  | (.restart, s1) => (.restart, s1)
  | (.done r, s1) => (.done r, s1)

/-- Whether one more pass exceeds `AUTOCFG_MAX_PASSES` (R232, R238). -/
def overPasses (p : Params) (passes : Nat) : Bool :=
  match p.autocfgMaxPasses with
  | some k => k < passes
  | none => false

/-- One pass from S1 (R230, R232). -/
def autoPass (passes : Nat) (s : State) : Progress × State :=
  let s1 := s.updMaster fun m => { m with autoPasses := some passes }
  if overPasses s.params passes then (.done .passLimit, s1) else idsThenOn (scanAll s1)

/-- The return of AUTO_CONFIG, fatal or not (R230): the array is written, the mutex released, the code reported. -/
def finishAuto (r : ResultCode) (s : State) : State :=
  report r (unlockMutex (s.updMaster fun m => { m with resultPerAddress := m.res, autoPasses := none }))

/-- The next pass of the call in progress, and its return if the pass ends it. -/
def advanceAuto (passes : Nat) (s : State) : State :=
  match autoPass (passes + 1) s with
  | (.done r, s1) => finishAuto r s1
  | (.restart, s1) => s1
  | (.onward, s1) => s1

/-- AUTO_CONFIG (R230): the prologue, INITIALISE and the first pass. -/
def execAutoConfig (s : State) : Host.Outcome State Fault Refusal :=
  if s.master.initialized = false then .next (report .notInitialized s)
  else if s.master.autoPasses.isSome then .refused .operationInProgress
  else .next (advanceAuto 0 (initAuto (lockMutex s)))

end Sys2Proof.Machine
end

