-- ==== Sys2Proof/Machine/Codec.lean ====
section
/-! DEFINITION. The meanings of the pure functions (40_crc8, 41_frame_codec): the answer goes to `State.codecOut`, a field
of the model; nothing else changes ("No side effects, no error cases"; log 11). -/

namespace Sys2Proof.Machine

/-- Answer a codec function. -/
def answer (out : CodecOut) (s : State) : Host.Outcome State Fault Refusal := .next { s with codecOut := out }

/-- CRC8 (R141). -/
def execCrc8 (r b : Byte) (s : State) : Host.Outcome State Fault Refusal :=
  answer (.byte (crc8 s.params r b)) s

/-- CRC8_OVER (R144). -/
def execCrc8Over (bytes : List Byte) (r : Byte) (s : State) : Host.Outcome State Fault Refusal :=
  answer (.byte (crc8Over s.params bytes r)) s

/-- MAKE_HEADER (R160). -/
def execMakeHeader (cls : MsgClass) (addr : Addr) (s : State) : Host.Outcome State Fault Refusal :=
  answer (.byte (makeHeader cls addr)) s

/-- SPLIT_HEADER (R161). -/
def execSplitHeader (h : Byte) (s : State) : Host.Outcome State Fault Refusal :=
  answer (.header (splitHeader h).1 (splitHeader h).2) s

/-- HEADER_CRC (R163). -/
def execHeaderCrc (h : Byte) (s : State) : Host.Outcome State Fault Refusal :=
  answer (.byte (headerCrc s.params h)) s

/-- BUILD_WRITE_FRAME (R164). DESIGN CHOICE (log 32): it builds the frame of a payload of any length and of class 7 too; R164
states no bound on either, and the tests of class and `MAX_PAYLOAD` (R116, U7) are those of SEND_MESSAGE. -/
def execBuildWriteFrame (addr : Addr) (cls : MsgClass) (payload : List Byte) (s : State) :
    Host.Outcome State Fault Refusal :=
  answer (.bytes (buildWriteFrame s.params addr cls payload)) s

/-- BUILD_READ_REQUEST (R165). DESIGN CHOICE (log 32): it builds the request of class 7 too; the test of the class (R116, U7) is
that of RECEIVE_MESSAGE. -/
def execBuildReadRequest (addr : Addr) (cls : MsgClass) (s : State) : Host.Outcome State Fault Refusal :=
  answer (.bytes (buildReadRequest s.params addr cls)) s

/-- BUILD_CMD_FRAME (R166). -/
def execBuildCmdFrame (addr : Addr) (request : Vector Byte 5) (s : State) : Host.Outcome State Fault Refusal :=
  answer (.bytes (buildCmdFrame s.params addr request)) s

/-- PAYLOAD_OK (R167). -/
def execPayloadOk (window : List Byte) (s : State) : Host.Outcome State Fault Refusal :=
  answer (.flag (payloadOk s.params window)) s

/-- DECODE_INQUIRE (R168). -/
def execDecodeInquire (resp : Vector Byte 5) (s : State) : Host.Outcome State Fault Refusal :=
  answer (.inquire (inquireType resp) (inquireFw resp) (inquireHw resp) (inquireButton resp)) s

end Sys2Proof.Machine
end

