-- ==== Sys2Proof/Machine/Frames.lean ====
section
/-! DEFINITION. The meanings of the wire frames (30_encoding R104 to R114, 44_slave_fsm, 45_slave_renum): the frame's
bytes go over the wire after a break, every slave decodes them, and the addressed ones act and reply. -/

namespace Sys2Proof.Machine

/-- A data frame of a class: every slave that accepts it writes, reads or ignores by its device's answer (R265, R266). -/
def dataFrame (cls : MsgClass) (addr : Addr) (hcrc : Byte) (body : List Byte) (s : State) : State :=
  frameOnWire (makeHeader cls addr :: hcrc :: body) s

/-- A command frame: header, header CRC, five request bytes, CRC (R106, R268, R270). -/
def commandFrame (addr : Addr) (hcrc sub : Byte) (args : List Byte) (crc : Byte) (s : State) : State :=
  frameOnWire (makeHeader Config.cmdClass addr :: hcrc :: sub :: (args ++ [crc])) s

/-- DATA0 (R266). -/
def execData0 (addr : Addr) (hcrc : Byte) (body : List Byte) (s : State) : Host.Outcome State Fault Refusal :=
  .next (dataFrame 0 addr hcrc body s)

/-- DATA1 (R266). -/
def execData1 (addr : Addr) (hcrc : Byte) (body : List Byte) (s : State) : Host.Outcome State Fault Refusal :=
  .next (dataFrame 1 addr hcrc body s)

/-- DATA2 (R266). -/
def execData2 (addr : Addr) (hcrc : Byte) (body : List Byte) (s : State) : Host.Outcome State Fault Refusal :=
  .next (dataFrame 2 addr hcrc body s)

/-- DATA3 (R266). -/
def execData3 (addr : Addr) (hcrc : Byte) (body : List Byte) (s : State) : Host.Outcome State Fault Refusal :=
  .next (dataFrame 3 addr hcrc body s)

/-- DATA4 (R266). -/
def execData4 (addr : Addr) (hcrc : Byte) (body : List Byte) (s : State) : Host.Outcome State Fault Refusal :=
  .next (dataFrame 4 addr hcrc body s)

/-- DATA5 (R266). -/
def execData5 (addr : Addr) (hcrc : Byte) (body : List Byte) (s : State) : Host.Outcome State Fault Refusal :=
  .next (dataFrame 5 addr hcrc body s)

/-- DATA6 (R266). -/
def execData6 (addr : Addr) (hcrc : Byte) (body : List Byte) (s : State) : Host.Outcome State Fault Refusal :=
  .next (dataFrame 6 addr hcrc body s)

/-- CMD_PROBE (R109, R271). -/
def execCmdProbe (addr : Addr) (hcrc : Byte) (args : Vector Byte 4) (crc : Byte) (s : State) :
    Host.Outcome State Fault Refusal :=
  .next (commandFrame addr hcrc Config.subProbe args.toList crc s)

/-- CMD_RENUM (R110, R321). -/
def execCmdRenum (addr : Addr) (hcrc newAddr : Byte) (args : Vector Byte 3) (crc : Byte) (s : State) :
    Host.Outcome State Fault Refusal :=
  .next (commandFrame addr hcrc Config.subRenum (newAddr :: args.toList) crc s)

/-- CMD_INQUIRE (R111, R273). -/
def execCmdInquire (addr : Addr) (hcrc : Byte) (args : Vector Byte 4) (crc : Byte) (s : State) :
    Host.Outcome State Fault Refusal :=
  .next (commandFrame addr hcrc Config.subInquire args.toList crc s)

/-- CMD_RESERVED (R112, R274). -/
def execCmdReserved (addr : Addr) (hcrc sub : Byte) (args : Vector Byte 4) (crc : Byte) (s : State) :
    Host.Outcome State Fault Refusal :=
  .next (commandFrame addr hcrc sub args.toList crc s)

end Sys2Proof.Machine
end

