-- ==== Sys2Proof/Machine/Dispatch.lean ====
section
/-! DEFINITION. One arm per instruction: a direct call of its meaning. -/

namespace Sys2Proof.Machine

def exec (i : Instr) (s : State) : Host.Outcome State Fault Refusal :=
  match i with
  | .data0 addr hcrc body => Sys2Proof.Machine.execData0 addr hcrc body s
  | .data1 addr hcrc body => Sys2Proof.Machine.execData1 addr hcrc body s
  | .data2 addr hcrc body => Sys2Proof.Machine.execData2 addr hcrc body s
  | .data3 addr hcrc body => Sys2Proof.Machine.execData3 addr hcrc body s
  | .data4 addr hcrc body => Sys2Proof.Machine.execData4 addr hcrc body s
  | .data5 addr hcrc body => Sys2Proof.Machine.execData5 addr hcrc body s
  | .data6 addr hcrc body => Sys2Proof.Machine.execData6 addr hcrc body s
  | .cmdProbe addr hcrc args crc => Sys2Proof.Machine.execCmdProbe addr hcrc args crc s
  | .cmdRenum addr hcrc newAddr args crc => Sys2Proof.Machine.execCmdRenum addr hcrc newAddr args crc s
  | .cmdInquire addr hcrc args crc => Sys2Proof.Machine.execCmdInquire addr hcrc args crc s
  | .cmdReserved addr hcrc sub args crc => Sys2Proof.Machine.execCmdReserved addr hcrc sub args crc s
  | .init mutex => Sys2Proof.Machine.execInit mutex s
  | .sendMessage addr cls payload => Sys2Proof.Machine.execSendMessage addr cls payload s
  | .receiveMessage addr cls length buf => Sys2Proof.Machine.execReceiveMessage addr cls length buf s
  | .sendCmdMessage addr request out => Sys2Proof.Machine.execSendCmdMessage addr request out s
  | .defineDevices decls => Sys2Proof.Machine.execDefineDevices decls s
  | .defineMirroring defs => Sys2Proof.Machine.execDefineMirroring defs s
  | .mirrorTick => Sys2Proof.Machine.execMirrorTick s
  | .renumId old new => Sys2Proof.Machine.execRenumId old new s
  | .checkConfig => Sys2Proof.Machine.execCheckConfig s
  | .autoConfig => Sys2Proof.Machine.execAutoConfig s
  | .opReserved10 => Sys2Proof.Machine.execOpReserved10 s
  | .opReserved11 => Sys2Proof.Machine.execOpReserved11 s
  | .opReserved12 => Sys2Proof.Machine.execOpReserved12 s
  | .opReserved13 => Sys2Proof.Machine.execOpReserved13 s
  | .opReserved14 => Sys2Proof.Machine.execOpReserved14 s
  | .opReserved15 => Sys2Proof.Machine.execOpReserved15 s
  | .crc8 r b => Sys2Proof.Machine.execCrc8 r b s
  | .crc8Over bytes r => Sys2Proof.Machine.execCrc8Over bytes r s
  | .makeHeader cls addr => Sys2Proof.Machine.execMakeHeader cls addr s
  | .splitHeader h => Sys2Proof.Machine.execSplitHeader h s
  | .headerCrc h => Sys2Proof.Machine.execHeaderCrc h s
  | .buildWriteFrame addr cls payload => Sys2Proof.Machine.execBuildWriteFrame addr cls payload s
  | .buildReadRequest addr cls => Sys2Proof.Machine.execBuildReadRequest addr cls s
  | .buildCmdFrame addr request => Sys2Proof.Machine.execBuildCmdFrame addr request s
  | .payloadOk window => Sys2Proof.Machine.execPayloadOk window s
  | .decodeInquire resp => Sys2Proof.Machine.execDecodeInquire resp s

end Sys2Proof.Machine
end

