-- ==== Sys2Proof/Machine/Inputs.lean ====
section
/-! DEFINITION. What each input of the outside world does, and how an instruction's bytes are fetched and placed (log 20). -/

namespace Sys2Proof.Machine

/-- The reset of one slave (70_reset R390, R391); an absent place resets nobody. -/
def resetSlaveAt (k : Nat) (s : State) : State := { s with slaves := s.slaves.modify k Slave.restart }

/-- The reset of the master (R390, R392): slaves, bus and the host's buffers are not its own. -/
def resetMaster (s : State) : State := { s with master := Master.afterReset s.params }

/-- Bytes that no instruction is read from. On the wire every slave's state machine has a rule for every byte (44 R281), so
they are carried like any frame; a call with no selector, or an operand beyond its field, is refused (R115, R116, R169,
U7). -/
def runRaw (r : Request) (e : DecodeError) (s : State) : Host.Outcome State Fault Refusal :=
  match r.port with
  | .wire => .next (frameOnWire r.bytes s)
  | .host => .refused (.undecodable e)
  | .codec => .refused (.undecodable e)

/-- Run what stands at a port. Operands that fit their fields but not their ranges are the operation's own business, since
it tests NOT_INITIALIZED before them (42 R180, R348; log 30). -/
def runRequest (r : Request) (s : State) : Host.Outcome State Fault Refusal :=
  match parse r with
  | .ok i => exec i s
  | .error e => runRaw r e s

/-- What an input does. -/
def takeInput (i : Input) (s : State) : Host.Outcome State Fault Refusal :=
  match i with
  | .request r => runRequest r s
  | .event k e => .next (eventAt k e s)
  | .lineBreak => .next (sendBreak s)
  | .lineByte b => .next (slot (some b) s)
  | .elapse => .next (busTurn s)
  | .resetSlave k => .next (resetSlaveAt k s)
  | .resetMaster => .next (resetMaster s)
  | .hostWrite buf bytes => .next (storeBuf buf bytes s)
  | .supply draws => .next { s with free := { s.free with queue := s.free.queue ++ draws } }
  | .disturb noise => .next { s with bus := { s.bus with noise := s.bus.noise ++ noise } }

/-- The request a word of the opcode table is fetched as; one no port takes where the word stands for none. -/
def requestOfWord (nbits w : Nat) : Request := (tableRequest nbits w).getD ⟨.codec, []⟩

/-- Put a request before every pending input, with no operation in progress (the fetch waits for one, R180). -/
def placeRequest (r : Request) (s : State) : State :=
  { s with inputs := .request r :: s.inputs, master := { s.master with autoPasses := none } }

end Sys2Proof.Machine
end

