-- ==== Sys2Proof/Machine/Step.lean ====
section
/-! DEFINITION. The step: an AUTO_CONFIG in progress goes on by one pass; otherwise the oldest input is taken; with no input
the bus moves on its own, which changes nothing once it is quiescent (70_reset R409). -/

namespace Sys2Proof.Machine

/-- One step of the system. -/
def step (s : State) : Host.Outcome State Fault Refusal :=
  match s.master.autoPasses with
  | some passes => .next (advanceAuto passes s)
  | none =>
    match s.inputs with
    | [] => .next (busTurn s)
    | i :: rest => takeInput i { s with inputs := rest }

/-- `s` with a word of spec/opcode_table.json as the next instruction the step fetches (log 11, log 20). -/
def State.withFetchWord (s : State) (nbits w : Nat) : State := placeRequest (requestOfWord nbits w) s

end Sys2Proof.Machine
end

