-- ==== Sys2Proof/Safety.lean ====
section
/-! DEFINITION. What claims say of states and runs: soundness of a slave, of the master and of the system, quiescence
(70_reset R409), and a few names for sets of instructions. -/

namespace Sys2Proof.Machine

/-! ## Soundness -/

/-- A slave as every handler leaves it: transmit-empty signalling is on exactly in the three transmitting states (44 R278),
the working address is the persisted one (20 R97), and the index is in the range of its phase (10 R25). -/
abbrev Slave.Sound (sl : Slave) : Prop :=
  (sl.txEn = true ↔ sl.st = .txAck ∨ sl.st = .txMsg ∨ sl.st = .txCtrlResp) ∧
  sl.ownAddr = sl.eepromAddr ∧
  (sl.st = .rxHeader → sl.idx.toNat ≤ 1) ∧
  (sl.st = .rxCtrlMsg → sl.idx.toNat ≤ 4) ∧
  (sl.st = .txCtrlResp → sl.idx.toNat ≤ 5) ∧
  (sl.st = .txRenumConf → 1 ≤ sl.idx.toNat ∧ sl.idx.toNat ≤ 6)

/-- A mirror entry as DEFINE_MIRRORING and MIRROR_TICK leave it (10 R36, 42 R187): slot 0 to 6, phase and ticker in
[0, period). -/
abbrev MirrorEntry.Sound (e : MirrorEntry) : Prop :=
  e.slot ≠ Config.cmdClass ∧ e.phase < e.period ∧ e.ticker < e.period

/-- A scan result as 30_encoding R118 lists them: `OTHER` holds only the codes a command exchange can fail with. -/
abbrev ScanResult.Sound (r : ScanResult) : Prop :=
  r = .rescan ∨ r = .ok ∨ r = .noResponse ∨ r = .other .timeout ∨ r = .other .crcError

/-- The master between steps: initialised exactly with a transport (R33), holding the mutex only inside an operation
(R180), only addresses 1 to 30 declared (R35), the mirror table sound, entries 0 and 31 of the scan tables never scanned
(R118), the count that of the bytes read (R39). -/
abbrev Master.Sound (m : Master) : Prop :=
  (m.initialized = true ↔ m.transport.isSome = true) ∧
  (m.autoPasses.isSome = true → m.initialized = true) ∧
  m.mutexDepth = (if m.autoPasses.isSome && m.hasMutex then 1 else 0) ∧
  (m.decl 0).valid = false ∧ (m.decl 31).valid = false ∧
  (∀ e ∈ m.mirror, e.Sound) ∧
  m.resOf 0 = .rescan ∧ m.resOf 31 = .rescan ∧
  (∀ a : Addr, (m.resOf a).Sound) ∧
  m.resultPerAddress.get (0 : Addr).toFin = .rescan ∧ m.resultPerAddress.get (31 : Addr).toFin = .rescan ∧
  m.n = m.rxbuf.length

/-- The invariant of the system; every slot of the directory is within `MAX_PAYLOAD` (R35) and the read timeout is the
configured one (R34: no operation changes it). -/
abbrev State.Inv (s : State) : Prop :=
  Memory.wf s.mem = true ∧
  (∀ (a : Addr) (c : MsgClass), (s.master.slotOf a c).len.toNat ≤ s.params.maxPayload) ∧
  s.master.timeoutUs = s.params.timeoutUs ∧
  s.bus.breakOn = false ∧
  (∀ x ∈ s.bus.inFlight, x.1 < s.slaves.length) ∧
  (∀ sl ∈ s.slaves, sl.Sound) ∧
  s.master.Sound

/-! ## Quiescence -/

/-- No agent moves until the host acts (70_reset R409): nothing on the bus, no transmitter enabled, no renumbering. -/
abbrev State.Quiescent (s : State) : Prop :=
  s.master.autoPasses = none ∧ s.bus.breakOn = false ∧ s.bus.inFlight = [] ∧
  ∀ sl ∈ s.slaves, sl.txEn = false ∧ sl.st ≠ .waitRenumTimer ∧ sl.st ≠ .txRenumConf

/-- The bus can carry a frame unharmed: nothing on it, no disturbance to come. -/
abbrev State.CleanBus (s : State) : Prop := s.bus.inFlight = [] ∧ s.bus.noise = []

/-- The host may issue an operation: a transport is registered and no operation is in progress (42 R180). -/
abbrev State.Ready (s : State) : Prop := s.master.initialized = true ∧ s.master.autoPasses = none

/-! ## Instructions by family -/

/-- The data frames by their class (30_encoding R114). -/
def dataInstrs (addr : Addr) (hcrc : Byte) (body : List Byte) : List (MsgClass × Instr) :=
  [(0, .data0 addr hcrc body), (1, .data1 addr hcrc body), (2, .data2 addr hcrc body), (3, .data3 addr hcrc body),
   (4, .data4 addr hcrc body), (5, .data5 addr hcrc body), (6, .data6 addr hcrc body)]

/-- The host operations that need a registered transport (42 R180). -/
def isPublicOp : Instr → Bool
  | .data0 _ _ _ => false
  | .data1 _ _ _ => false
  | .data2 _ _ _ => false
  | .data3 _ _ _ => false
  | .data4 _ _ _ => false
  | .data5 _ _ _ => false
  | .data6 _ _ _ => false
  | .cmdProbe _ _ _ _ => false
  | .cmdRenum _ _ _ _ _ => false
  | .cmdInquire _ _ _ _ => false
  | .cmdReserved _ _ _ _ _ => false
  | .init _ => false
  | .sendMessage _ _ _ => true
  | .receiveMessage _ _ _ _ => true
  | .sendCmdMessage _ _ _ => true
  | .defineDevices _ => true
  | .defineMirroring _ => true
  | .mirrorTick => true
  | .renumId _ _ => true
  | .checkConfig => true
  | .autoConfig => true
  | .opReserved10 => false
  | .opReserved11 => false
  | .opReserved12 => false
  | .opReserved13 => false
  | .opReserved14 => false
  | .opReserved15 => false
  | .crc8 _ _ => false
  | .crc8Over _ _ => false
  | .makeHeader _ _ => false
  | .splitHeader _ => false
  | .headerCrc _ => false
  | .buildWriteFrame _ _ _ => false
  | .buildReadRequest _ _ => false
  | .buildCmdFrame _ _ => false
  | .payloadOk _ => false
  | .decodeInquire _ => false

/-- The host operations that exchange frames and so write the exchange buffers (10 R39, 42 R193). -/
def isExchangeOp : Instr → Bool
  | .data0 _ _ _ => false
  | .data1 _ _ _ => false
  | .data2 _ _ _ => false
  | .data3 _ _ _ => false
  | .data4 _ _ _ => false
  | .data5 _ _ _ => false
  | .data6 _ _ _ => false
  | .cmdProbe _ _ _ _ => false
  | .cmdRenum _ _ _ _ _ => false
  | .cmdInquire _ _ _ _ => false
  | .cmdReserved _ _ _ _ _ => false
  | .init _ => false
  | .sendMessage _ _ _ => true
  | .receiveMessage _ _ _ _ => true
  | .sendCmdMessage _ _ _ => true
  | .defineDevices _ => false
  | .defineMirroring _ => false
  | .mirrorTick => true
  | .renumId _ _ => true
  | .checkConfig => true
  | .autoConfig => true
  | .opReserved10 => false
  | .opReserved11 => false
  | .opReserved12 => false
  | .opReserved13 => false
  | .opReserved14 => false
  | .opReserved15 => false
  | .crc8 _ _ => false
  | .crc8Over _ _ => false
  | .makeHeader _ _ => false
  | .splitHeader _ => false
  | .headerCrc _ => false
  | .buildWriteFrame _ _ _ => false
  | .buildReadRequest _ _ => false
  | .buildCmdFrame _ _ => false
  | .payloadOk _ => false
  | .decodeInquire _ => false

/-- The state a step or a meaning answers with, if it answers a next state. -/
def nextOf : Host.Outcome State Fault Refusal → Option State
  | .next s => some s
  | .fault _ => none
  | .refused _ => none

/-- `k` calls of an instruction one after another, where each answers a next state. -/
def execTimes (i : Instr) : Nat → State → Option State
  | 0, s => some s
  | k + 1, s => (nextOf (exec i s)).bind (execTimes i k)

/-- Two states that differ at most in the slaves, the bus, the free values and the exchange buffers: what an exchange
touches (10 R39, 42 R193). -/
abbrev SameButBus (s t : State) : Prop :=
  t.params = s.params ∧ t.mem = s.mem ∧ t.inputs = s.inputs ∧ t.codecOut = s.codecOut ∧
  t.master = { s.master with txbuf := t.master.txbuf, rxbuf := t.master.rxbuf, n := t.master.n }

/-- What a host operation that only exchanges frames leaves alone: everything but the slaves, the bus, the free values, the
exchange buffers and the result. -/
abbrev ExchangesOnly (s t : State) : Prop :=
  t.params = s.params ∧ t.mem = s.mem ∧ t.inputs = s.inputs ∧ t.codecOut = s.codecOut ∧
  t.master = { s.master with
    txbuf := t.master.txbuf, rxbuf := t.master.rxbuf, n := t.master.n, result := t.master.result }

/-- What a host operation leaves alone that also writes the `n` bytes of a buffer from `base`: as `ExchangesOnly`, and
every byte of memory outside the buffer. -/
abbrev ExchangesAndStores (base n : Nat) (s t : State) : Prop :=
  t.params = s.params ∧ t.inputs = s.inputs ∧ t.codecOut = s.codecOut ∧
  (∀ x, x < base ∨ base + n ≤ x → Memory.read t.mem x = Memory.read s.mem x) ∧
  t.master = { s.master with
    txbuf := t.master.txbuf, rxbuf := t.master.rxbuf, n := t.master.n, result := t.master.result }

/-- What a pass of AUTO_CONFIG leaves alone (43 R230 to R238): everything but the slaves, the bus, the free values, the
exchange buffers, its own tables, flags and output array, the mutex and the result. -/
abbrev AutoConfigOnly (s t : State) : Prop :=
  t.params = s.params ∧ t.mem = s.mem ∧ t.inputs = s.inputs ∧ t.codecOut = s.codecOut ∧
  t.master = { s.master with
    txbuf := t.master.txbuf, rxbuf := t.master.rxbuf, n := t.master.n, result := t.master.result
    res := t.master.res, rtype := t.master.rtype, renumbered := t.master.renumbered, swapped := t.master.swapped
    resultPerAddress := t.master.resultPerAddress, autoPasses := t.master.autoPasses
    mutexDepth := t.master.mutexDepth }

/-- The codes AUTO_CONFIG returns once a transport is registered (43 R230, R237). -/
def autoConfigCodes : List ResultCode :=
  [.ok, .idRenumbered, .typeConflictResolved, .noFreeAddress, .typeConflict, .passLimit, .noResponse, .timeout, .crcError]

/-! ## What a frame leaves on a clean bus -/

/-- What the break of the next frame contributes to the master's stream (20 R77): free bytes. -/
def State.echo (s : State) : List Byte := (Free.drawList s.params.breakEchoBytes.val s.free).1

/-- The free values after the break of the next frame. -/
def State.freeAfterEcho (s : State) : Free := (Free.drawList s.params.breakEchoBytes.val s.free).2

/-- The state in which a frame is over: these slaves, these free values, and the master's receiver heard the break and
these bytes. -/
def State.afterFrame (s : State) (slaves : List Slave) (free : Free) (heard : List Byte) : State :=
  { s with
    slaves := slaves
    free := free
    bus := { breakOn := false, inFlight := [], stream := s.echo ++ heard, noise := [] } }

/-- The slave in place `k` lives at `a` and every other slave elsewhere, on a bus that carries frames unharmed, with a CRC
table that obeys its laws (40 R142, R143). -/
abbrev State.Addressed (s : State) (k : Nat) (sl : Slave) (a : Addr) : Prop :=
  s.slaves[k]? = some sl ∧ sl.ownAddr = a ∧
  (∀ (j : Nat) (other : Slave), s.slaves[j]? = some other → j ≠ k → other.ownAddr ≠ a) ∧
  s.CleanBus ∧ CrcLaws s.params

/-- The same state with these disturbances of the coming slots (20 R96, 90 C6; log 22). -/
def State.disturbed (noise : List Noise) (s : State) : State := { s with bus := { s.bus with noise := noise } }

/-- A disturbance of the slot numbered from 0 alone. -/
def onlySlot (i : Nat) (n : Noise) : List Noise := List.replicate i .clean ++ [n]

/-- Time for `n` characters within the read timeout (10 R34). -/
abbrev State.TimeFor (s : State) (n : Nat) : Prop := n * charTimeUs s.params ≤ s.master.timeoutUs.toNat

/-- A slave that has discarded a frame at its header (44 R264, R265): nothing but its scratch registers is written. -/
def Slave.discarded (p : Params) (h c : Byte) (sl : Slave) : Slave :=
  { sl.onBreak with st := .waitBreak, hdr := h, crc := crc8 p (crc8 p Config.seed h) c, idx := 1 }

/-- The slaves after a frame that only the one in place `k` took: it is `sl`, the others discarded the frame. -/
def State.othersDiscard (s : State) (h c : Byte) (k : Nat) (sl : Slave) : List Slave :=
  (s.slaves.map (Slave.discarded s.params h c)).set k sl

/-- A slave that has refused a data frame because its device ignores the class (44 R266). -/
def Slave.declined (h : Byte) (sl : Slave) : Slave :=
  { sl.onBreak with
    st := .waitBreak, hdr := h, crc := 0, idx := 1, msgClass := headerClass h
    dev := { sl.onBreak.dev with pos := 0, calls := .initTransfer (headerClass h) :: sl.onBreak.dev.calls } }

/-- A slave that has taken a write and acknowledged it (44 R264 to R267, R269, R275): its device was asked, got every
payload byte in order, and was told the end; transmit-empty signalling went on and off. -/
def Slave.stored (h : Byte) (payload : List Byte) (sl : Slave) : Slave :=
  { sl.onBreak with
    st := .waitBreak, hdr := h, crc := 0, idx := 1, msgClass := headerClass h, txEn := false
    dev := { sl.onBreak.dev with
      pos := payload.length
      calls := .enableTransmitEmptySignal false :: .enableTransmitEmptySignal true :: .endTransfer (headerClass h) ::
        (payload.map Call.storeByte).reverse ++ .initTransfer (headerClass h) :: sl.onBreak.dev.calls } }

/-- A slave that has heard a write whose payload and CRC byte do not agree (44 R267, R269): its device got the payload bytes
and is not told the end. -/
def Slave.spoiled (p : Params) (h : Byte) (heard : List Byte) (sl : Slave) : Slave :=
  { sl.onBreak with
    st := .waitBreak, hdr := h, crc := crc8Over p heard Config.seed, idx := 1, msgClass := headerClass h
    dev := { sl.onBreak.dev with
      pos := heard.length - 1
      calls := (heard.dropLast.map Call.storeByte).reverse ++ .initTransfer (headerClass h) :: sl.onBreak.dev.calls } }

/-- A slave that has answered a read with these bytes and their CRC (44 R264 to R266, R276). -/
def Slave.replied (p : Params) (h : Byte) (reply : List Byte) (sl : Slave) : Slave :=
  { sl.onBreak with
    st := .waitBreak, hdr := h, crc := payloadCrc p reply, idx := 1, msgClass := headerClass h, txEn := false
    dev := { sl.onBreak.dev with
      pos := reply.length
      calls := .endTransfer (headerClass h) :: .enableTransmitEmptySignal false :: .fetchByte none ::
        (reply.map fun b => Call.fetchByte (some b)).reverse ++ .enableTransmitEmptySignal true ::
        .initTransfer (headerClass h) :: sl.onBreak.dev.calls } }

/-- A slave that has taken a command request and its good CRC (44 R264, R265, R268, R270). -/
def Slave.requested (h : Byte) (request : Vector Byte 5) (sl : Slave) : Slave :=
  { sl.onBreak with st := .waitBreak, hdr := h, crc := 0, idx := 5, len := 5, ctrlReq := request }

/-- A slave that has sent this response to a command, after these callbacks of the dispatch (44 R271, R273, R277). -/
def Slave.responded (p : Params) (h : Byte) (request resp : Vector Byte 5) (calls : List Call) (sl : Slave) : Slave :=
  { sl.requested h request with
    crc := payloadCrc p resp.toList, ctrlResp := resp, txEn := false
    dev := { sl.onBreak.dev with
      calls := .enableTransmitEmptySignal false :: .enableTransmitEmptySignal true :: calls ++ sl.onBreak.dev.calls } }

/-- A slave that has confirmed a renumber and adopted the new address (45 R321 to R326). -/
def Slave.renumbered (p : Params) (h : Byte) (request filler : Vector Byte 5) (new : Addr) (sl : Slave) : Slave :=
  { sl.requested h request with
    ownAddr := new, eepromAddr := new, crc := payloadCrc p filler.toList, idx := 6, ctrlResp := filler
    renumTarget := new, renumTimer := 0, lastTx := payloadCrc p filler.toList
    dev := { sl.onBreak.dev with calls := .persistAddress new :: sl.onBreak.dev.calls } }

/-- Time for the longest backoff and a confirmation (45 R321): the 16-bit timer, a tick, six characters; and a tick that
moves the timer. -/
abbrev State.TimeToRenumber (s : State) : Prop :=
  0 < s.params.tickUs ∧ 65536 + s.params.tickUs + 6 * charTimeUs s.params ≤ s.master.timeoutUs.toNat

/-! ## The contention of a renumber (45 R328) -/

/-- The six bytes of a slave's confirmation. -/
def Slave.confirmation (p : Params) (sl : Slave) : List Byte := sl.ctrlResp.toList ++ [payloadCrc p sl.ctrlResp.toList]

/-- A slave that has just handed the first byte of its confirmation to its transmitter (R324). -/
abbrev Slave.StartsConfirming (p : Params) (sl : Slave) : Prop :=
  sl.st = .txRenumConf ∧ sl.idx = 1 ∧ sl.lastTx = sl.ctrlResp[0] ∧ sl.crc = crc8 p Config.seed sl.ctrlResp[0] ∧
  sl.txEn = false

/-- The confirmations still transmitting at byte position `j` (R328): those whose byte was the AND of all, so far. -/
def stillConfirming (confs : List (List Byte)) : Nat → List (List Byte)
  | 0 => confs
  | j + 1 =>
    (stillConfirming confs j).filter fun c =>
      c.getD j 0 = ((stillConfirming confs j).map fun d => d.getD j 0).foldl (· &&& ·) 0xFF

/-- Turns of the bus with nobody but the slaves sending. -/
def busTurns : Nat → State → State
  | 0, s => s
  | k + 1, s => busTurns k (busTurn s)

/-! ## The attempts of a renumber (42 R189) -/

/-- The state after `k` RENUM exchanges in a row, whatever each returned. -/
def afterAttempts (old new : Addr) : Nat → State → State
  | 0, s => s
  | k + 1, s => (command old (renumRequest new) (afterAttempts old new k s)).2.2

/-- The code of the attempt numbered from 0. -/
def attemptCode (old new : Addr) (k : Nat) (s : State) : ResultCode :=
  (command old (renumRequest new) (afterAttempts old new k s)).1

/-! ## The transfers of a mirror tick (42 R188) -/

/-- The transfer of an entry as an operation of its own, by the declared direction and length. -/
def MirrorEntry.transfer (e : MirrorEntry) (s : State) : Instr :=
  match (s.master.slotOf e.addr e.slot).dir with
  | .m2s => .sendMessage e.addr e.slot (Memory.load e.buf.toNat (s.master.slotOf e.addr e.slot).len.toNat s.mem)
  | .s2m => .receiveMessage e.addr e.slot (s.master.slotOf e.addr e.slot).len e.buf

/-- The transfers of these entries one after another, whatever each returned: each entry's address and code, and the state
after the last. -/
def transferAll : List MirrorEntry → State → Option (List (Addr × Option ResultCode) × State)
  | [], s => some ([], s)
  | e :: es, s =>
    (nextOf (exec (e.transfer s) s)).bind fun t =>
      (transferAll es t).map fun out => ((e.addr, t.master.result) :: out.1, out.2)

/-! ## AUTO_CONFIG as the rules tell it (43 R231 to R236) -/

/-- An address a device may have (20 R71). -/
abbrev Usable (a : Addr) : Prop := a ≠ 0 ∧ a ≠ 31

/-- One slave lives at `a` and is of the type declared there (42 R190). -/
abbrev State.Agrees (s : State) (a : Addr) : Prop :=
  ∃ (k : Nat) (sl : Slave), s.Addressed k sl a ∧ sl.devType = (s.master.decl a).devType

/-- R233: a result that is neither OK nor no-response. -/
abbrev Master.Conflicted (m : Master) (a : Addr) : Prop := Usable a ∧ m.resOf a ≠ .ok ∧ m.resOf a ≠ .noResponse

/-- R233: a free address. -/
abbrev Master.FreeAddr (m : Master) (a : Addr) : Prop := Usable a ∧ m.resOf a = .noResponse

/-- R234: a device that answers and is not declared. -/
abbrev Master.Extra (m : Master) (a : Addr) : Prop := Usable a ∧ m.resOf a = .ok ∧ (m.decl a).valid = false

/-- R234: a declared device that does not answer. -/
abbrev Master.Missing (m : Master) (a : Addr) : Prop := Usable a ∧ (m.decl a).valid = true ∧ m.resOf a = .noResponse

/-- R235: a declared device that answers with another type. -/
abbrev Master.Mismatched (m : Master) (a : Addr) : Prop :=
  Usable a ∧ (m.decl a).valid = true ∧ m.resOf a = .ok ∧ m.typeOf a ≠ (m.decl a).devType

/-- R235: a higher address, itself mismatched, whose type is the declared type of `a`. -/
abbrev Master.Partner (m : Master) (a b : Addr) : Prop := a < b ∧ m.Mismatched b ∧ m.typeOf b = (m.decl a).devType

/-- The lowest address with a property. -/
abbrev Lowest (P : Addr → Prop) (a : Addr) : Prop := P a ∧ ∀ b, b < a → ¬P b

/-- The same state after some draws. -/
abbrev AfterDraws (s q : State) : Prop := q = { s with free := q.free }

/-- R234: the table entry moves with the device from `x` to `y`. -/
abbrev EntryMoved (x y : Addr) (s t : State) : Prop :=
  t = { s with master := { s.master with res := t.master.res, rtype := t.master.rtype, renumbered := true } } ∧
  (∀ a, t.master.resOf a = if a = x then .noResponse else if a = y then .ok else s.master.resOf a) ∧
  (∀ a, t.master.typeOf a = if a = y then s.master.typeOf x else s.master.typeOf a)

/-- R233: both addresses must be scanned again. -/
abbrev BothRescanned (c f : Addr) (s t : State) : Prop :=
  t = { s with master := { s.master with res := t.master.res, renumbered := true } } ∧
  (∀ a, t.master.resOf a = if a = c ∨ a = f then .rescan else s.master.resOf a)

/-- R235: the in-memory type table follows the swap. -/
abbrev TypesSwapped (a b : Addr) (s t : State) : Prop :=
  t = { s with master := { s.master with rtype := t.master.rtype, swapped := true } } ∧
  (∀ x, t.master.typeOf x =
    if x = a then s.master.typeOf b else if x = b then s.master.typeOf a else s.master.typeOf x)

/-- R123, R235: the three renumbers A to 0, B to A, 0 to B, up to the first that fails. -/
inductive SwapRun (a b : Addr) (s : State) : ResultCode → State → Prop where
  | first : (renumBody a 0 s).1 ≠ .ok → SwapRun a b s (renumBody a 0 s).1 (renumBody a 0 s).2
  | second : (renumBody a 0 s).1 = .ok → (renumBody b a (renumBody a 0 s).2).1 ≠ .ok →
      SwapRun a b s (renumBody b a (renumBody a 0 s).2).1 (renumBody b a (renumBody a 0 s).2).2
  | third : (renumBody a 0 s).1 = .ok → (renumBody b a (renumBody a 0 s).2).1 = .ok →
      SwapRun a b s (renumBody 0 b (renumBody b a (renumBody a 0 s).2).2).1
        (renumBody 0 b (renumBody b a (renumBody a 0 s).2).2).2

/-- Rounds of S3 that succeeded (R234): an extra device is renumbered to a missing address. -/
inductive ExtrasMoved : State → State → Prop where
  | none (s : State) : ExtrasMoved s s
  | one {s q t u : State} {x y : Addr} : s.master.Extra x → s.master.Missing y → AfterDraws s q →
      (renumBody x y q).1 = .ok → EntryMoved x y (renumBody x y q).2 t → ExtrasMoved t u → ExtrasMoved s u

/-- Rounds of S4 that succeeded (R235): the lowest mismatched device and its lowest partner are swapped. -/
inductive PairsSwapped : State → State → Prop where
  | none (s : State) : PairsSwapped s s
  | one {s r t u : State} {a b : Addr} : Lowest s.master.Mismatched a → Lowest (s.master.Partner a) b →
      SwapRun a b s .ok r → TypesSwapped a b r t → PairsSwapped t u → PairsSwapped s u

/-- S3 is over: no extra device or no missing one is left (R234). -/
abbrev Master.NothingToMove (m : Master) : Prop := (∀ x, ¬m.Extra x) ∨ (∀ y, ¬m.Missing y)

/-- How a pass ends after its scan left the state `p`: a code to return, or none to scan again; and the state then. -/
inductive PassEnds (p : State) : Option ResultCode → State → Prop where
  /-- S2: a conflict and no free address -/
  | noFree {c : Addr} : p.master.Conflicted c → (∀ f, ¬p.master.FreeAddr f) → PassEnds p (some .noFreeAddress) p
  /-- S2: the lowest conflicted address is renumbered to some free one -/
  | renumbered {c f : Addr} {q t : State} : Lowest p.master.Conflicted c → p.master.FreeAddr f → AfterDraws p q →
      (renumBody c f q).1 = .ok → BothRescanned c f (renumBody c f q).2 t → PassEnds p none t
  /-- S2: that renumber fails -/
  | conflictStays {c f : Addr} {q : State} : Lowest p.master.Conflicted c → p.master.FreeAddr f → AfterDraws p q →
      (renumBody c f q).1 ≠ .ok → PassEnds p (some (renumBody c f q).1) (renumBody c f q).2
  /-- S3: a renumber of an extra device fails -/
  | missingStays {x y : Addr} {u q : State} : (∀ c, ¬p.master.Conflicted c) → ExtrasMoved p u → u.master.Extra x →
      u.master.Missing y → AfterDraws u q → (renumBody x y q).1 ≠ .ok →
      PassEnds p (some (renumBody x y q).1) (renumBody x y q).2
  /-- S4: no partner -/
  | typeConflict {a : Addr} {u v : State} : (∀ c, ¬p.master.Conflicted c) → ExtrasMoved p u → u.master.NothingToMove →
      PairsSwapped u v → Lowest v.master.Mismatched a → (∀ b, ¬v.master.Partner a b) →
      PassEnds p (some .typeConflict) v
  /-- S4: a renumber of a swap fails -/
  | swapFails {a b : Addr} {u v w : State} {r : ResultCode} : (∀ c, ¬p.master.Conflicted c) → ExtrasMoved p u →
      u.master.NothingToMove → PairsSwapped u v → Lowest v.master.Mismatched a → Lowest (v.master.Partner a) b →
      SwapRun a b v r w → r ≠ .ok → PassEnds p (some r) w
  /-- S5: the status by the two flags -/
  | returns {u v : State} : (∀ c, ¬p.master.Conflicted c) → ExtrasMoved p u → u.master.NothingToMove →
      PairsSwapped u v → (∀ a, ¬v.master.Mismatched a) →
      PassEnds p (some (if v.master.swapped then .typeConflictResolved
        else if v.master.renumbered then .idRenumbered else .ok)) v

/-- R232: what PROBE and then INQUIRE of an address give: the code, the reported type where both are OK, the state then. -/
inductive ScanReply (a : Addr) (s : State) : ResultCode → Option Word16 → State → Prop where
  /-- PROBE fails -/
  | noProbe : (command a probeRequest s).1 ≠ .ok →
      ScanReply a s (command a probeRequest s).1 none (command a probeRequest s).2.2
  /-- PROBE is OK and INQUIRE fails -/
  | noInquire : (command a probeRequest s).1 = .ok →
      (command a inquireRequest (command a probeRequest s).2.2).1 ≠ .ok →
      ScanReply a s (command a inquireRequest (command a probeRequest s).2.2).1 none
        (command a inquireRequest (command a probeRequest s).2.2).2.2
  /-- both are OK -/
  | identified : (command a probeRequest s).1 = .ok →
      (command a inquireRequest (command a probeRequest s).2.2).1 = .ok →
      ScanReply a s .ok (some (inquireType (command a inquireRequest (command a probeRequest s).2.2).2.1))
        (command a inquireRequest (command a probeRequest s).2.2).2.2

/-- R232: the result recorded for a code. -/
def scanResultOf (r : ResultCode) : ScanResult :=
  if r = .ok then .ok else if r = .noResponse then .noResponse else .other r

/-- R232: the scan of one address, from the state before it to the state after (which addresses are asked again after a
restart: log 34). -/
inductive ScanStep (a : Addr) (s : State) : State → Prop where
  /-- confirmed OK or unanswered: passed over -/
  | confirmed : s.master.resOf a = .ok ∨ s.master.resOf a = .noResponse → ScanStep a s s
  /-- asked, and its entry written: the result always, the type where it was reported -/
  | asked {r : ResultCode} {ty : Option Word16} {w t : State} :
      s.master.resOf a ≠ .ok → s.master.resOf a ≠ .noResponse → ScanReply a s r ty w →
      t = { w with master := { w.master with res := t.master.res, rtype := t.master.rtype } } →
      (∀ b, t.master.resOf b = if b = a then scanResultOf r else s.master.resOf b) →
      (∀ b, t.master.typeOf b = if b = a then ty.getD (s.master.typeOf a) else s.master.typeOf b) → ScanStep a s t

/-- The state S1 leaves in the pass numbered from 1 (R232). -/
def State.scanned (passes : Nat) (s : State) : State :=
  scanAll { s with master := { s.master with autoPasses := some passes } }

/-- The state after the prologue and INITIALISE (42 R180, 43 R231). -/
def State.autoStarted (s : State) : State :=
  { lockMutex s with master := { (lockMutex s).master with
      res := Vector.replicate 32 .rescan, renumbered := false, swapped := false, result := none, autoPasses := some 0 } }

/-- What a pass makes of the step: the return with its code, or one pass more. -/
def passOutcome (r : Option ResultCode) (t : State) : State :=
  match r with
  | some code => finishAuto code t
  | none => t

end Sys2Proof.Machine
end

