-- ==== Sys2Proof/Certificates/Slice0/Obligations.lean ====
section
/-! DEFINITION. The statements for the provers, each a proposition about the machine. A docstring names the rules of the spec
a statement formalises, and the log entries (notes/assumptions) a statement rests on where it is the model's choice. -/

section

open Sys2Proof Sys2Proof.Machine

/-! ## Encoding and fetching -/

/-- The decoder reads back every well-formed instruction from its encoding, every operand at every value. The operand bytes
of the host and codec ports are the model's own layout (log 11). -/
def Obligations.DecodeUndoesEncode : Prop :=
  ∀ i : Instr, wellFormed i = true → decode (encode i) = .ok i

/-- Bytes that decode to an instruction are that instruction's encoding: no bit is dropped and no byte has two readings. -/
def Obligations.EncodeUndoesDecode : Prop :=
  ∀ (r : Request) (i : Instr), decode r = .ok i → encode i = r

/-- Words written out by hand from 30_encoding R101 to R112 and R115 decode to the instruction they stand for: seven wire
frames and four words of the opcode table. How a table word is read (CRC bytes 0, a word below 16 a host selector, so that
0b0111 is RENUM_ID and not DATA0 at address 7) is the model's choice, log 11. -/
def Obligations.HandWrittenWordsDecode : Prop :=
  decode ⟨.wire, [0b00000010, 0x5B, 0x01, 0x64, 0x82]⟩ = .ok (.data0 2 0x5B [0x01, 0x64, 0x82]) ∧
  decode ⟨.wire, [0b00100010, 0xBB]⟩ = .ok (.data1 2 0xBB []) ∧
  decode ⟨.wire, [0b11000001, 0x00]⟩ = .ok (.data6 1 0x00 []) ∧
  decode ⟨.wire, [0b11100011, 0xF2, 0, 0, 0, 0, 0, 0xB2]⟩ = .ok (.cmdProbe 3 0xF2 #v[0, 0, 0, 0] 0xB2) ∧
  decode ⟨.wire, [0b11100011, 0xF2, 1, 7, 0, 0, 0, 0xB2]⟩ = .ok (.cmdRenum 3 0xF2 7 #v[0, 0, 0] 0xB2) ∧
  decode ⟨.wire, [0b11100011, 0xF2, 2, 0, 0, 0, 0, 0x76]⟩ = .ok (.cmdInquire 3 0xF2 #v[0, 0, 0, 0] 0x76) ∧
  decode ⟨.wire, [0b11100011, 0xF2, 3, 0, 0, 0, 0, 0x00]⟩ = .ok (.cmdReserved 3 0xF2 3 #v[0, 0, 0, 0] 0) ∧
  decodeTableWord 16 0b1110000000000001 = some (.cmdRenum 0 0 0 #v[0, 0, 0] 0) ∧
  decodeTableWord 8 0b10100101 = some (.data5 5 0 []) ∧
  decodeTableWord 8 0b0111 = some (.renumId 0 0) ∧
  decodeTableWord 8 0b1001 = some .autoConfig

/-- With no operation in progress and a request first among the inputs, the step consumes the request and runs exactly the
instruction its bytes decode to, which is well formed. Operands that fit their fields but not their ranges are left to the
operation, which tests NOT_INITIALIZED before them (log 30). Bytes on the wire that are no frame are carried all the same;
bytes at the other ports that are no call are refused by name (log 16). A word of the opcode table placed for the fetch is
run the same way (log 11, log 20). -/
def Obligations.StepRunsDecodedInstruction : Prop :=
  (∀ (s : State) (r : Request) (rest : List Input) (i : Instr),
    s.master.autoPasses = none → s.inputs = .request r :: rest → decode r = .ok i →
      wellFormed i = true ∧ step s = exec i { s with inputs := rest }) ∧
  (∀ (s : State) (r : Request) (rest : List Input),
    s.master.autoPasses = none → s.inputs = .request r :: rest →
      (∀ i, parse r = .ok i → step s = exec i { s with inputs := rest }) ∧
      (∀ e, parse r = .error e → r.port = .wire → step s = .next (frameOnWire r.bytes { s with inputs := rest })) ∧
      (∀ e, parse r = .error e → r.port ≠ .wire → step s = .refused (.undecodable e))) ∧
  (∀ (s : State) (nbits w : Nat) (i : Instr), decodeTableWord nbits w = some i →
    step (s.withFetchWord nbits w) = exec i { s with master := { s.master with autoPasses := none } })

/-- In a quiescent state with no input nothing moves (70_reset R409). That a step without input is a turn of the bus is the
model's choice, log 6. -/
def Obligations.QuiescentStateStays : Prop :=
  ∀ s : State, s.Quiescent → s.inputs = [] → step s = .next s

/-- An event delivered to one slave is handled by that slave alone, and a byte it transmits is in flight under its own place
(60 R352, 44 R261). TXE occurs only where the slave enabled it and its transmitter holds no byte; elsewhere a delivered one
changes nothing. That the outside world may deliver any event is the model's choice, log 28. -/
def Obligations.EventReachesOneSlave : Prop :=
  ∀ (s : State) (k : Nat) (e : Event) (sl : Slave) (rest : List Input),
    s.master.autoPasses = none → s.inputs = .event k e :: rest → s.slaves[k]? = some sl →
      ((e = .txe → sl.txEn = true ∧ ∀ x ∈ s.bus.inFlight, x.1 ≠ k) →
        step s = .next { s with
          inputs := rest
          slaves := s.slaves.set k (onEvent s.params e sl s.free).slave
          free := (onEvent s.params e sl s.free).free
          bus := { s.bus with
            inFlight := s.bus.inFlight ++ (onEvent s.params e sl s.free).tx.toList.map fun b => (k, b) } }) ∧
      (e = .txe → sl.txEn = false ∨ (∃ x ∈ s.bus.inFlight, x.1 = k) → step s = .next { s with inputs := rest })

/-- The reset event of one agent (70_reset R390 to R392): a slave comes up in WaitBreak at its persisted address with
signalling off and its identity kept, and no other agent changes; the master comes up uninitialised with an empty
directory and mirror table and the configured timeout. That a reset is an input, keeps the catalog and leaves a byte in flight
is the model's choice, log 31. -/
def Obligations.ResetOfAnAgent : Prop :=
  (∀ (s : State) (k : Nat) (sl : Slave) (rest : List Input),
    s.master.autoPasses = none → s.inputs = .resetSlave k :: rest → s.slaves[k]? = some sl →
      ∃ sl' : Slave, step s = .next { s with inputs := rest, slaves := s.slaves.set k sl' } ∧
        sl'.st = .waitBreak ∧ sl'.ownAddr = sl.eepromAddr ∧ sl'.eepromAddr = sl.eepromAddr ∧ sl'.txEn = false ∧
        sl'.devType = sl.devType ∧ sl'.fwVer = sl.fwVer ∧ sl'.hwRev = sl.hwRev ∧ sl'.dev.catalog = sl.dev.catalog) ∧
  (∀ (s : State) (rest : List Input),
    s.master.autoPasses = none → s.inputs = .resetMaster :: rest →
      ∃ m : Master, step s = .next { s with inputs := rest, master := m } ∧
        m.initialized = false ∧ m.transport = none ∧ m.timeoutUs = s.params.timeoutUs ∧
        (∀ a, (m.decl a).valid = false) ∧ m.mirror = [] ∧ m.autoPasses = none)

/-- The system after reset, whatever its parameters and slaves (70_reset R391 to R393), and a slave reset at any time (R391):
it ignores the rest of the frame and keeps its persisted address. The values of registers these rules call unspecified
(log 4) are not part of it. -/
def Obligations.SystemAfterReset : Prop :=
  (∃ (p : Params) (cs : List SlaveConfig), State.reset = State.afterReset p cs) ∧
  State.reset.master.timeoutUs = 1000000 ∧
  (∀ sl : Slave,
    sl.restart.st = .waitBreak ∧ sl.restart.ownAddr = sl.eepromAddr ∧ sl.restart.eepromAddr = sl.eepromAddr ∧
    sl.restart.txEn = false ∧ sl.restart.devType = sl.devType ∧ sl.restart.fwVer = sl.fwVer ∧
    sl.restart.hwRev = sl.hwRev ∧
    ∀ (p : Params) (b : Byte) (f : Free), onEvent p (.rx b) sl.restart f = ⟨sl.restart, f, none⟩) ∧
  ∀ (p : Params) (cs : List SlaveConfig),
    (State.afterReset p cs).master.initialized = false ∧
    (State.afterReset p cs).master.transport = none ∧
    (State.afterReset p cs).master.timeoutUs = p.timeoutUs ∧
    (∀ a, ((State.afterReset p cs).master.decl a).valid = false) ∧
    (State.afterReset p cs).master.mirror = [] ∧
    (State.afterReset p cs).bus.breakOn = false ∧
    (State.afterReset p cs).bus.inFlight = [] ∧
    (State.afterReset p cs).slaves.map
        (fun sl => (sl.st, sl.ownAddr, sl.eepromAddr, sl.txEn, sl.devType, sl.fwVer, sl.hwRev)) =
      cs.map (fun c => (SlaveState.waitBreak, c.eepromAddr, c.eepromAddr, false, c.devType, c.fwVer, c.hwRev))

/-! ## CRC8 and the frame codec -/

/-- Zero residue (40 R147): appending the computed CRC byte gives a final running CRC of 0. -/
def Obligations.CrcResidueIsZero : Prop :=
  ∀ p : Params, CrcLaws p → ∀ (bytes : List Byte) (r : Byte), crc8Over p (bytes ++ [crc8Over p bytes r]) r = 0

/-- The check is an equality test (40 R148), byte by byte, over a payload window, and for a header. -/
def Obligations.CrcCheckIsEquality : Prop :=
  ∀ p : Params, CrcLaws p →
    (∀ r b : Byte, crc8 p r b = 0 ↔ b = r) ∧
    (∀ (payload : List Byte) (b : Byte), payloadOk p (payload ++ [b]) = true ↔ b = payloadCrc p payload) ∧
    (∀ h c : Byte, crc8 p (crc8 p Config.seed h) c = 0 ↔ c = headerCrc p h)

/-- Detection (40 R149): a change of one byte changes the CRC, and a window that verified does not verify after it; under
`REF` a change of two bytes can go unseen. -/
def Obligations.CrcDetectsOneByte : Prop :=
  (∀ p : Params, CrcLaws p → ∀ (before after : List Byte) (a b r : Byte), a ≠ b →
    crc8Over p (before ++ a :: after) r ≠ crc8Over p (before ++ b :: after) r ∧
    (payloadOk p (before ++ a :: after) = true → payloadOk p (before ++ b :: after) = false)) ∧
  crc8Over Config.reference [0x01, 0x07, 0, 0, 0] Config.seed = 0xB2 ∧
  crc8Over Config.reference [0, 0, 0, 0, 0] Config.seed = 0xB2

/-- The reference table is that of the polynomial 0x07, most significant bit first (40 R146; log 25). -/
def Obligations.ReferenceTableIsThePolynomial : Prop :=
  ∀ i : Byte, crcTable Config.reference i =
    Nat.iterate (fun c : Byte => if c.getLsbD 7 then (c <<< 1) ^^^ 0x07 else c <<< 1) 8 i

/-- The ten pure functions answer as their rules give and change nothing but the model's answer field (40 R141, R144; 41
R160, R161, R163 to R168; the answer field: log 11). That BUILD_WRITE_FRAME builds the frame of a payload longer than
MAX_PAYLOAD too, and that it and BUILD_READ_REQUEST take class 7, is the model's choice, log 32. -/
def Obligations.CodecFunctionsAnswer : Prop :=
  (∀ (r b : Byte) (s : State), exec (.crc8 r b) s = .next { s with codecOut := .byte (s.params.crcTable.get (r ^^^ b).toFin) }) ∧
  (∀ (r : Byte) (s : State), exec (.crc8Over [] r) s = .next { s with codecOut := .byte r }) ∧
  (∀ (b : Byte) (bytes : List Byte) (r : Byte) (s : State),
    exec (.crc8Over (b :: bytes) r) s = exec (.crc8Over bytes (s.params.crcTable.get (r ^^^ b).toFin)) s) ∧
  (∀ (bytes : List Byte) (r : Byte) (s : State),
    exec (.crc8Over bytes r) s = .next { s with codecOut := .byte (crc8Over s.params bytes r) }) ∧
  (∀ (c : MsgClass) (a : Addr) (s : State),
    exec (.makeHeader c a) s = .next { s with codecOut := .byte ((c.setWidth 8 <<< 5) ||| a.setWidth 8) }) ∧
  (∀ (h : Byte) (s : State),
    exec (.splitHeader h) s = .next { s with codecOut := .header (h.extractLsb' 5 3) (h.extractLsb' 0 5) }) ∧
  (∀ (h : Byte) (s : State), exec (.headerCrc h) s = .next { s with codecOut := .byte (crc8 s.params 0xC5 h) }) ∧
  (∀ (a : Addr) (c : MsgClass) (payload : List Byte) (s : State),
    exec (.buildWriteFrame a c payload) s = .next { s with codecOut := .bytes (
      [makeHeader c a, headerCrc s.params (makeHeader c a)] ++ payload ++ [crc8Over s.params payload 0xC5]) }) ∧
  (∀ (a : Addr) (c : MsgClass) (s : State),
    exec (.buildReadRequest a c) s = .next { s with codecOut := .bytes (
      [makeHeader c a, headerCrc s.params (makeHeader c a)]) }) ∧
  (∀ (a : Addr) (request : Vector Byte 5) (s : State),
    exec (.buildCmdFrame a request) s = .next { s with codecOut := .bytes (
      [makeHeader 7 a, headerCrc s.params (makeHeader 7 a)] ++ request.toList ++
        [crc8Over s.params request.toList 0xC5]) }) ∧
  (∀ (window : List Byte) (s : State),
    exec (.payloadOk window) s = .next { s with codecOut := .flag (crc8Over s.params window 0xC5 = 0) }) ∧
  (∀ (resp : Vector Byte 5) (s : State),
    exec (.decodeInquire resp) s = .next { s with codecOut :=
      (.inquire ((resp[0].setWidth 16 <<< 8) ||| resp[1].setWidth 16) ((resp[2].setWidth 16 <<< 8) ||| resp[3].setWidth 16)
        (resp[4].extractLsb' 0 7) (resp[4].getLsbD 7)) })

/-- Splitting undoes making a header and the other way round (41 R162); decoding an INQUIRE response undoes the slave's
encoder and the other way round (41 R168). -/
def Obligations.CodecPairsAreInverse : Prop :=
  (∀ (c : MsgClass) (a : Addr), splitHeader (makeHeader c a) = (c, a)) ∧
  (∀ h : Byte, makeHeader (splitHeader h).1 (splitHeader h).2 = h) ∧
  (∀ (t f : Word16) (hw : HwRev) (btn : Bool),
    inquireType (encodeInquire t f hw btn) = t ∧ inquireFw (encodeInquire t f hw btn) = f ∧
    inquireHw (encodeInquire t f hw btn) = hw ∧ inquireButton (encodeInquire t f hw btn) = btn) ∧
  (∀ resp : Vector Byte 5,
    encodeInquire (inquireType resp) (inquireFw resp) (inquireHw resp) (inquireButton resp) = resp)

/-- Every frame the codec builds passes both checks of its receiver: the header pair and the payload window verify, and the
header carries the class and the address (41 R163 to R167). Payloads longer than MAX_PAYLOAD and class 7 are log 32. -/
def Obligations.BuiltFramesVerify : Prop :=
  ∀ p : Params, CrcLaws p → ∀ (a : Addr) (c : MsgClass) (payload : List Byte) (request : Vector Byte 5),
    (∃ h k rest, buildWriteFrame p a c payload = h :: k :: rest ∧ rest.length = payload.length + 1 ∧
      splitHeader h = (c, a) ∧ crc8Over p [h, k] Config.seed = 0 ∧ payloadOk p rest = true) ∧
    (∃ h k, buildReadRequest p a c = [h, k] ∧ splitHeader h = (c, a) ∧ crc8Over p [h, k] Config.seed = 0) ∧
    (∃ h k rest, buildCmdFrame p a request = h :: k :: rest ∧ rest.length = 6 ∧
      splitHeader h = (7, a) ∧ crc8Over p [h, k] Config.seed = 0 ∧ payloadOk p rest = true)

/-! ## Events of a slave -/

/-- BREAK in any state (44 R262): control goes to RxHeader with a fresh CRC run, signalling goes off if it was on, nothing
is transmitted and nothing else changes. -/
def Obligations.BreakRestartsAnySlave : Prop :=
  ∀ (p : Params) (sl : Slave) (f : Free), onEvent p .brk sl f =
    ⟨{ sl with
        st := .rxHeader, crc := 0xC5, idx := 0, txEn := false
        dev := if sl.txEn then { sl.dev with calls := .enableTransmitEmptySignal false :: sl.dev.calls } else sl.dev },
      f, none⟩

/-- The pairs of state and event that are ignored (44 R263, R278, R279, R280): no register changes, nothing is sent. -/
def Obligations.IgnoredEventsChangeNothing : Prop :=
  ∀ (p : Params) (sl : Slave) (f : Free) (b : Byte),
    (sl.st = .waitBreak ∨ sl.st = .txAck ∨ sl.st = .txMsg ∨ sl.st = .txCtrlResp →
      onEvent p (.rx b) sl f = ⟨sl, f, none⟩) ∧
    (sl.st ≠ .txAck → sl.st ≠ .txMsg → sl.st ≠ .txCtrlResp → onEvent p .txe sl f = ⟨sl, f, none⟩) ∧
    (sl.st ≠ .waitRenumTimer → onEvent p .tick sl f = ⟨sl, f, none⟩)

/-- The two header bytes (44 R264 to R266). -/
def Obligations.HeaderBytesAreDecoded : Prop :=
  ∀ (p : Params) (sl : Slave) (f : Free) (b : Byte), sl.st = .rxHeader →
    (sl.idx = 0 →
      onEvent p (.rx b) sl f = ⟨{ sl with hdr := b, crc := crc8 p sl.crc b, idx := 1 }, f, none⟩) ∧
    (sl.idx = 1 → crc8 p sl.crc b ≠ 0 ∨ headerAddr sl.hdr ≠ sl.ownAddr →
      onEvent p (.rx b) sl f = ⟨{ sl with st := .waitBreak, crc := crc8 p sl.crc b }, f, none⟩) ∧
    (sl.idx = 1 → crc8 p sl.crc b = 0 → headerAddr sl.hdr = sl.ownAddr → headerClass sl.hdr = 7 →
      onEvent p (.rx b) sl f = ⟨{ sl with st := .rxCtrlMsg, len := 5, idx := 0, crc := 0xC5 }, f, none⟩) ∧
    (sl.idx = 1 → crc8 p sl.crc b = 0 → headerAddr sl.hdr = sl.ownAddr → headerClass sl.hdr ≠ 7 →
      (∀ n, sl.dev.kind (headerClass sl.hdr) = .receive n →
        onEvent p (.rx b) sl f =
          ⟨{ sl with
              st := .rxMsg, crc := 0xC5, msgClass := headerClass sl.hdr
              dev := { sl.dev with pos := 0, calls := .initTransfer (headerClass sl.hdr) :: sl.dev.calls } }, f, none⟩) ∧
      (∀ n, sl.dev.kind (headerClass sl.hdr) = .transmit n →
        onEvent p (.rx b) sl f =
          ⟨{ sl with
              st := .txMsg, crc := 0xC5, msgClass := headerClass sl.hdr, txEn := true
              dev := { sl.dev with
                pos := 0
                calls := .enableTransmitEmptySignal true :: .initTransfer (headerClass sl.hdr) :: sl.dev.calls } },
            f, none⟩) ∧
      (sl.dev.kind (headerClass sl.hdr) = .ignore →
        onEvent p (.rx b) sl f =
          ⟨{ sl with
              st := .waitBreak, crc := 0, msgClass := headerClass sl.hdr
              dev := { sl.dev with pos := 0, calls := .initTransfer (headerClass sl.hdr) :: sl.dev.calls } }, f, none⟩))

/-- A payload byte and the trailing CRC of a write (44 R267, R269). That the device expects more bytes until the slot's
length, `more + 1`, is reached is the model's device (log 14). -/
def Obligations.WriteBytesAreReceived : Prop :=
  ∀ (p : Params) (sl : Slave) (f : Free) (b : Byte),
    (sl.st = .rxMsg → ∀ more, sl.dev.kind sl.msgClass = .receive more →
      onEvent p (.rx b) sl f =
        ⟨{ sl with
            st := if sl.dev.pos < more then .rxMsg else .checkRxCrc
            crc := crc8 p sl.crc b
            dev := { sl.dev with pos := sl.dev.pos + 1, calls := .storeByte b :: sl.dev.calls } }, f, none⟩) ∧
    (sl.st = .checkRxCrc → crc8 p sl.crc b ≠ 0 →
      onEvent p (.rx b) sl f = ⟨{ sl with st := .waitBreak, crc := crc8 p sl.crc b }, f, none⟩) ∧
    (sl.st = .checkRxCrc → crc8 p sl.crc b = 0 →
      onEvent p (.rx b) sl f =
        ⟨{ sl with
            st := .txAck, crc := 0, txEn := true
            dev := { sl.dev with
              calls := .enableTransmitEmptySignal true :: .endTransfer sl.msgClass :: sl.dev.calls } }, f, none⟩)

/-- The request bytes, the trailing CRC and the dispatch of a command other than RENUM (44 R268, R270 to R274). -/
def Obligations.CommandBytesAreReceived : Prop :=
  ∀ (p : Params) (sl : Slave) (f : Free) (b : Byte),
    (sl.st = .rxCtrlMsg → ∀ h : sl.idx.toNat < 5,
      onEvent p (.rx b) sl f =
        ⟨{ sl with
            st := if sl.idx = 4 then .checkRxCtrlCrc else .rxCtrlMsg
            crc := crc8 p sl.crc b
            ctrlReq := sl.ctrlReq.set sl.idx.toNat b h
            idx := sl.idx + 1 }, f, none⟩) ∧
    (sl.st = .checkRxCtrlCrc → crc8 p sl.crc b ≠ 0 →
      onEvent p (.rx b) sl f = ⟨{ sl with st := .waitBreak, crc := crc8 p sl.crc b }, f, none⟩) ∧
    (sl.st = .checkRxCtrlCrc → crc8 p sl.crc b = 0 → sl.ctrlReq[0] = (0 : Byte) →
      onEvent p (.rx b) sl f =
        ⟨{ sl with
            st := .txCtrlResp, crc := 0xC5, idx := 0, ctrlResp := fiveOf (Free.drawList 5 f).1, txEn := true
            dev := { sl.dev with calls := .enableTransmitEmptySignal true :: sl.dev.calls } },
          (Free.drawList 5 f).2, none⟩) ∧
    (sl.st = .checkRxCtrlCrc → crc8 p sl.crc b = 0 → sl.ctrlReq[0] = (2 : Byte) →
      onEvent p (.rx b) sl f =
        ⟨{ sl with
            st := .txCtrlResp, crc := 0xC5, idx := 0, txEn := true
            ctrlResp := encodeInquire sl.devType sl.fwVer sl.hwRev (f.draw.1.getLsbD 0)
            dev := { sl.dev with
              calls := .enableTransmitEmptySignal true :: .readIndicator (f.draw.1.getLsbD 0) :: sl.dev.calls } },
          f.draw.2, none⟩) ∧
    (sl.st = .checkRxCtrlCrc → crc8 p sl.crc b = 0 → (3 : Byte) ≤ sl.ctrlReq[0] →
      onEvent p (.rx b) sl f = ⟨{ sl with st := .waitBreak, crc := 0 }, f, none⟩)

/-- What each TXE sends (44 R275 to R277). The bytes of a read come from the device and are free (log 14). -/
def Obligations.TransmitEmptySendsTheReply : Prop :=
  ∀ (p : Params) (sl : Slave) (f : Free),
    (sl.st = .txAck →
      onEvent p .txe sl f =
        ⟨{ sl with
            st := .waitBreak, txEn := false
            dev := { sl.dev with calls := .enableTransmitEmptySignal false :: sl.dev.calls } }, f, some 0x55⟩) ∧
    (sl.st = .txMsg → ∀ n, sl.dev.kind sl.msgClass = .transmit n → sl.dev.pos < n →
      onEvent p .txe sl f =
        ⟨{ sl with
            crc := crc8 p sl.crc f.draw.1
            dev := { sl.dev with pos := sl.dev.pos + 1, calls := .fetchByte (some f.draw.1) :: sl.dev.calls } },
          f.draw.2, some f.draw.1⟩) ∧
    (sl.st = .txMsg → ∀ n, sl.dev.kind sl.msgClass = .transmit n → n ≤ sl.dev.pos →
      onEvent p .txe sl f =
        ⟨{ sl with
            st := .waitBreak, txEn := false
            dev := { sl.dev with
              calls := .endTransfer sl.msgClass :: .enableTransmitEmptySignal false :: .fetchByte none ::
                sl.dev.calls } }, f, some sl.crc⟩) ∧
    (sl.st = .txCtrlResp → ∀ h : sl.idx.toNat < 5,
      onEvent p .txe sl f =
        ⟨{ sl with crc := crc8 p sl.crc sl.ctrlResp[sl.idx.toNat], idx := sl.idx + 1 }, f,
          some sl.ctrlResp[sl.idx.toNat]⟩) ∧
    (sl.st = .txCtrlResp → 5 ≤ sl.idx.toNat →
      onEvent p .txe sl f =
        ⟨{ sl with
            st := .waitBreak, txEn := false
            dev := { sl.dev with calls := .enableTransmitEmptySignal false :: sl.dev.calls } }, f, some sl.crc⟩)

/-- The renumber arbitration event by event (45 R321 to R326). The rounding of the backoff to whole microseconds is the
model's choice (log 17), and so is the free target of a request whose new-address byte is 32 or more (93 U6, log 15). -/
def Obligations.RenumberEventsFollowTheRules : Prop :=
  ∀ (p : Params) (sl : Slave) (f : Free) (b : Byte),
    (sl.st = .checkRxCtrlCrc → crc8 p sl.crc b = 0 → sl.ctrlReq[0] = (1 : Byte) → sl.ctrlReq[1] < (32 : Byte) →
      ∃ timer : Word16,
        onEvent p (.rx b) sl f =
          ⟨{ sl with
              st := .waitRenumTimer, crc := 0, renumTarget := sl.ctrlReq[1].setWidth 5
              ctrlResp := fiveOf (Free.drawList 5 f).1, renumTimer := timer },
            (Free.drawList 5 f).2.draw.2, none⟩ ∧
        ((Free.drawList 5 f).2.draw.1.toNat % 32 * 2 * p.charBits * 1000000 / p.baud < 65536 →
          timer.toNat = (Free.drawList 5 f).2.draw.1.toNat % 32 * 2 * p.charBits * 1000000 / p.baud)) ∧
    (sl.st = .checkRxCtrlCrc → crc8 p sl.crc b = 0 → sl.ctrlReq[0] = (1 : Byte) → (32 : Byte) ≤ sl.ctrlReq[1] →
      ∃ timer : Word16,
        onEvent p (.rx b) sl f =
          ⟨{ sl with
              st := .waitRenumTimer, crc := 0, renumTarget := f.draw.1.setWidth 5
              ctrlResp := fiveOf (Free.drawList 5 f.draw.2).1, renumTimer := timer },
            (Free.drawList 5 f.draw.2).2.draw.2, none⟩ ∧
        ((Free.drawList 5 f.draw.2).2.draw.1.toNat % 32 * 2 * p.charBits * 1000000 / p.baud < 65536 →
          timer.toNat = (Free.drawList 5 f.draw.2).2.draw.1.toNat % 32 * 2 * p.charBits * 1000000 / p.baud)) ∧
    (sl.st = .waitRenumTimer → p.tickUs < sl.renumTimer.toNat →
      ∃ timer : Word16, timer.toNat = sl.renumTimer.toNat - p.tickUs ∧
        onEvent p .tick sl f = ⟨{ sl with renumTimer := timer }, f, none⟩) ∧
    (sl.st = .waitRenumTimer → sl.renumTimer.toNat ≤ p.tickUs →
      onEvent p .tick sl f =
        ⟨{ sl with
            st := .txRenumConf, renumTimer := 0, crc := crc8 p 0xC5 sl.ctrlResp[0], lastTx := sl.ctrlResp[0], idx := 1 },
          f, some sl.ctrlResp[0]⟩) ∧
    (sl.st = .waitRenumTimer → onEvent p (.rx b) sl f = ⟨{ sl with st := .waitBreak }, f, none⟩) ∧
    (sl.st = .txRenumConf → b ≠ sl.lastTx → onEvent p (.rx b) sl f = ⟨{ sl with st := .waitBreak }, f, none⟩) ∧
    (sl.st = .txRenumConf → b = sl.lastTx → ∀ h : sl.idx.toNat < 5,
      onEvent p (.rx b) sl f =
        ⟨{ sl with
            crc := crc8 p sl.crc sl.ctrlResp[sl.idx.toNat], lastTx := sl.ctrlResp[sl.idx.toNat], idx := sl.idx + 1 },
          f, some sl.ctrlResp[sl.idx.toNat]⟩) ∧
    (sl.st = .txRenumConf → b = sl.lastTx → sl.idx = 5 →
      onEvent p (.rx b) sl f = ⟨{ sl with lastTx := sl.crc, idx := 6 }, f, some sl.crc⟩) ∧
    (sl.st = .txRenumConf → b = sl.lastTx → sl.idx = 6 →
      onEvent p (.rx b) sl f =
        ⟨{ sl with
            st := .waitBreak, ownAddr := sl.renumTarget, eepromAddr := sl.renumTarget
            dev := { sl.dev with calls := .persistAddress sl.renumTarget :: sl.dev.calls } }, f, none⟩)

/-- Silent reversion (60 R347): an event that brings a slave back to WaitBreak without a byte sent and without a commit
changes the state, the running CRC and, where a device answered `ignore`, the class, and nothing else; the device hears of
nothing but that question. -/
def Obligations.FailureIsSilentReversion : Prop :=
  ∀ (p : Params) (e : Event) (sl : Slave) (f : Free),
    sl.st ≠ .waitBreak → (onEvent p e sl f).slave.st = .waitBreak → (onEvent p e sl f).tx = none →
    ¬(sl.st = .txRenumConf ∧ sl.idx = 6 ∧ e = .rx sl.lastTx) →
      (onEvent p e sl f).free = f ∧
      (onEvent p e sl f).slave =
        { sl with
          st := .waitBreak, crc := (onEvent p e sl f).slave.crc, msgClass := (onEvent p e sl f).slave.msgClass
          dev := (onEvent p e sl f).slave.dev } ∧
      ((onEvent p e sl f).slave.dev = sl.dev ∨
        sl.dev.kind (headerClass sl.hdr) = .ignore ∧
        (onEvent p e sl f).slave.dev =
          { sl.dev with pos := 0, calls := .initTransfer (headerClass sl.hdr) :: sl.dev.calls })

/-- Every event keeps a slave sound (10 R25, 20 R97, 44 R278): signalling is on exactly in the transmitting states, the
working address is the persisted one, the index is in its range. -/
def Obligations.EventKeepsSlaveSound : Prop :=
  ∀ (p : Params) (e : Event) (sl : Slave) (f : Free), sl.Sound → (onEvent p e sl f).slave.Sound

/-- What a slave never does (44 R282, 45 R326, 10 R27): it changes its address only by the commit, it transmits only on TXE
in a transmitting state, at the end of its backoff, or for a good echo of its confirmation, and its identity never
changes. -/
def Obligations.WhatASlaveNeverDoes : Prop :=
  ∀ (p : Params) (e : Event) (sl : Slave) (f : Free),
    ((onEvent p e sl f).slave.ownAddr ≠ sl.ownAddr ∨ (onEvent p e sl f).slave.eepromAddr ≠ sl.eepromAddr →
      sl.st = .txRenumConf ∧ sl.idx = 6 ∧ e = .rx sl.lastTx ∧
      (onEvent p e sl f).slave.ownAddr = sl.renumTarget ∧ (onEvent p e sl f).slave.eepromAddr = sl.renumTarget) ∧
    (∀ b, (onEvent p e sl f).tx = some b →
      (e = .txe ∧ (sl.st = .txAck ∨ sl.st = .txMsg ∨ sl.st = .txCtrlResp)) ∨
      (e = .tick ∧ sl.st = .waitRenumTimer ∧ sl.renumTimer.toNat ≤ p.tickUs) ∨
      (e = .rx sl.lastTx ∧ sl.st = .txRenumConf)) ∧
    (onEvent p e sl f).slave.devType = sl.devType ∧ (onEvent p e sl f).slave.fwVer = sl.fwVer ∧
    (onEvent p e sl f).slave.hwRev = sl.hwRev ∧ (onEvent p e sl f).slave.dev.catalog = sl.dev.catalog

/-! ## Wire frames -/

/-- A frame nobody takes (44 R264, R265, R263; 30 R114): each of the eleven wire instructions, on a clean bus where every
slave has another address or the header CRC is wrong. Every slave discards it at the header, nobody answers, the master's
receiver hears the frame alone. That a wire frame is an instruction, with its CRC bytes, is the model's choice, log 10. -/
def Obligations.ForeignFrameIsDiscarded : Prop :=
  ∀ (s : State) (i : Instr) (h c : Byte) (rest : List Byte),
    encode i = ⟨.wire, h :: c :: rest⟩ → s.CleanBus → CrcLaws s.params →
    (∀ sl ∈ s.slaves, sl.ownAddr ≠ headerAddr h ∨ c ≠ headerCrc s.params h) →
      exec i s = .next (s.afterFrame (s.slaves.map (Slave.discarded s.params h c)) s.freeAfterEcho (h :: c :: rest))

/-- A data frame of a class the addressed device ignores (44 R266), for DATA0 to DATA6: the device is asked once, nothing is
answered, and every other slave discards the frame (log 10, log 14). -/
def Obligations.IgnoredClassIsDeclined : Prop :=
  ∀ (s : State) (k : Nat) (sl : Slave) (a : Addr) (c : MsgClass) (i : Instr) (h hc : Byte) (body : List Byte),
    h = makeHeader c a → hc = headerCrc s.params h → (c, i) ∈ dataInstrs a hc body →
    s.Addressed k sl a → sl.dev.kind c = .ignore →
      exec i s = .next (s.afterFrame (s.othersDiscard h hc k (sl.declined h)) s.freeAfterEcho (h :: hc :: body))

/-- A write completes, for DATA0 to DATA6 (44 R264 to R267, R269, R275): the addressed slave's device gets every payload
byte in order and is told the end, the slave acknowledges with 0x55 and is back in WaitBreak, every other slave discards the
frame, and nothing else changes. The frame as an instruction is log 10; that the device takes as many bytes as its slot is
long is log 14. -/
def Obligations.WriteIsStoredAndAcknowledged : Prop :=
  ∀ (s : State) (k : Nat) (sl : Slave) (a : Addr) (c : MsgClass) (i : Instr) (h hc : Byte) (payload : List Byte)
    (more : Nat),
    h = makeHeader c a → hc = headerCrc s.params h →
    (c, i) ∈ dataInstrs a hc (payload ++ [payloadCrc s.params payload]) →
    s.Addressed k sl a → sl.dev.kind c = .receive more → payload.length = more + 1 → s.TimeFor 1 →
      exec i s = .next (s.afterFrame (s.othersDiscard h hc k (sl.stored h payload)) s.freeAfterEcho
        (buildWriteFrame s.params a c payload ++ [0x55]))

/-- A read completes, for DATA0 to DATA6 (44 R266, R276): the addressed slave sends as many bytes of its device as the slot
is long and then their CRC, every other slave discards the frame, and nothing else changes. The bytes are free values
(log 14); the frame as an instruction is log 10. -/
def Obligations.ReadIsAnswered : Prop :=
  ∀ (s : State) (k : Nat) (sl : Slave) (a : Addr) (c : MsgClass) (i : Instr) (h hc : Byte) (n : Nat)
    (reply : List Byte) (free : Free),
    h = makeHeader c a → hc = headerCrc s.params h → (c, i) ∈ dataInstrs a hc [] →
    s.Addressed k sl a → sl.dev.kind c = .transmit n → s.TimeFor (n + 1) →
    Free.drawList n s.freeAfterEcho = (reply, free) →
      exec i s = .next (s.afterFrame (s.othersDiscard h hc k (sl.replied s.params h reply)) free
        (buildReadRequest s.params a c ++ reply ++ [payloadCrc s.params reply]))

/-- CMD_PROBE, CMD_INQUIRE and CMD_RESERVED at the addressed slave (44 R268, R270 to R274, R277): five free bytes, the
identity and the button, and nothing; each response is followed by its CRC, every other slave discards the frame, and
nothing else changes. The frame as an instruction is log 10. -/
def Obligations.CommandsAreAnswered : Prop :=
  ∀ (s : State) (k : Nat) (sl : Slave) (a : Addr) (h hc sub : Byte) (args : Vector Byte 4) (request : Vector Byte 5),
    h = makeHeader 7 a → hc = headerCrc s.params h → s.Addressed k sl a → s.TimeFor 6 →
    request = #v[sub, args[0], args[1], args[2], args[3]] →
    (sub = 0 → ∀ (filler : List Byte) (free : Free), Free.drawList 5 s.freeAfterEcho = (filler, free) →
      exec (.cmdProbe a hc args (payloadCrc s.params request.toList)) s =
        .next (s.afterFrame (s.othersDiscard h hc k (sl.responded s.params h request (fiveOf filler) [])) free
          (buildCmdFrame s.params a request ++ filler ++ [payloadCrc s.params filler]))) ∧
    (sub = 2 → ∀ (draw : Byte) (free : Free) (resp : Vector Byte 5), s.freeAfterEcho.draw = (draw, free) →
      resp = encodeInquire sl.devType sl.fwVer sl.hwRev (draw.getLsbD 0) →
      exec (.cmdInquire a hc args (payloadCrc s.params request.toList)) s =
        .next (s.afterFrame
          (s.othersDiscard h hc k (sl.responded s.params h request resp [.readIndicator (draw.getLsbD 0)])) free
          (buildCmdFrame s.params a request ++ resp.toList ++ [payloadCrc s.params resp.toList]))) ∧
    (3 ≤ sub →
      exec (.cmdReserved a hc sub args (payloadCrc s.params request.toList)) s =
        .next (s.afterFrame (s.othersDiscard h hc k (sl.requested h request)) s.freeAfterEcho
          (buildCmdFrame s.params a request)))

/-- CMD_RENUM at the one slave it addresses (45 R321 to R326, R328 case 1): after its backoff it confirms with five free
bytes and their CRC, hears them unchanged, and adopts and persists the new address, whatever other slaves there are; a
new-address byte of 32 or more gives a free target (93 U6, log 15). The frame as an instruction is log 10; the time premise
rests on log 8 and log 17. -/
def Obligations.LoneSlaveAdoptsTheNewAddress : Prop :=
  ∀ (s : State) (k : Nat) (sl : Slave) (a target : Addr) (h hc new : Byte) (args : Vector Byte 3)
    (request : Vector Byte 5) (f : Free) (filler : List Byte) (free : Free),
    h = makeHeader 7 a → hc = headerCrc s.params h → s.Addressed k sl a → s.TimeToRenumber →
    request = #v[1, new, args[0], args[1], args[2]] →
    (target, f) = (if new < 32 then (new.setWidth 5, s.freeAfterEcho)
      else (s.freeAfterEcho.draw.1.setWidth 5, s.freeAfterEcho.draw.2)) →
    Free.drawList 5 f = (filler, free) →
      exec (.cmdRenum a hc new args (payloadCrc s.params request.toList)) s =
        .next (s.afterFrame
          (s.othersDiscard h hc k (sl.renumbered s.params h request (fiveOf filler) target)) free.draw.2
          (buildCmdFrame s.params a request ++ filler ++ [payloadCrc s.params filler]))

/-- The outcome of a contention (45 R328): any number of slaves that start their confirmations in the same slot; after the
six slots each is back in WaitBreak, and it has adopted its target exactly if its confirmation was the AND of those still
transmitting at every position. -/
def Obligations.ContentionLeavesTheSurvivors : Prop :=
  ∀ s : State, s.bus.breakOn = false → s.bus.noise = [] →
    s.bus.inFlight = s.slaves.mapIdx (fun i sl => (i, sl.ctrlResp[0])) →
    (∀ sl ∈ s.slaves, sl.StartsConfirming s.params) →
      (busTurns 6 s).slaves.length = s.slaves.length ∧
      ∀ (i : Nat) (sl : Slave), s.slaves[i]? = some sl →
        ∃ sl' : Slave, (busTurns 6 s).slaves[i]? = some sl' ∧ sl'.st = .waitBreak ∧
          (sl.confirmation s.params ∈ stillConfirming (s.slaves.map (Slave.confirmation s.params)) 6 →
            sl'.ownAddr = sl.renumTarget ∧ sl'.eepromAddr = sl.renumTarget) ∧
          (sl.confirmation s.params ∉ stillConfirming (s.slaves.map (Slave.confirmation s.params)) 6 →
            sl'.ownAddr = sl.ownAddr ∧ sl'.eepromAddr = sl.eepromAddr)

/-- Two contenders with different filler bytes (45 R328 case 2): at most one commits, however long the bus goes on. The slots
are those of log 6. -/
def Obligations.AtMostOneOfTwoCommits : Prop :=
  ∀ (s : State) (a b : Slave) (k : Nat), s.slaves = [a, b] → s.bus.breakOn = false → s.bus.noise = [] →
    s.bus.inFlight = [(0, a.ctrlResp[0]), (1, b.ctrlResp[0])] →
    a.StartsConfirming s.params → b.StartsConfirming s.params → a.ctrlResp ≠ b.ctrlResp →
      ∃ a' b' : Slave, (busTurns k s).slaves = [a', b'] ∧
        ((a'.ownAddr = a.ownAddr ∧ a'.eepromAddr = a.eepromAddr) ∨
          (b'.ownAddr = b.ownAddr ∧ b'.eepromAddr = b.eepromAddr))

/-! ## Host operations -/

/-- Before INIT every public operation returns NOT_INITIALIZED and touches nothing else (42 R180, 60 R348). That this holds for
operands that a model refuses too (class 7, an ill-formed list), because NOT_INITIALIZED comes before the refusals, is
log 30 (DEDUCED). -/
def Obligations.NotInitializedComesFirst : Prop :=
  ∀ (i : Instr) (s : State), isPublicOp i = true → s.master.initialized = false →
    exec i s = .next { s with master := { s.master with result := some .notInitialized } }

/-- INIT (42 R181) registers the transport, replacing an earlier one, and touches nothing else. -/
def Obligations.InitRegistersTheTransport : Prop :=
  ∀ (mutex : Bool) (s : State), s.master.autoPasses = none →
    exec (.init mutex) s =
      .next { s with master := { s.master with transport := some ⟨mutex⟩, initialized := true, result := some .ok } }

/-- The reserved selectors 10 to 15 are refused in every state (30 R115). -/
def Obligations.ReservedSelectorsAreRefused : Prop :=
  ∀ s : State,
    exec .opReserved10 s = .refused .reservedSelector ∧ exec .opReserved11 s = .refused .reservedSelector ∧
    exec .opReserved12 s = .refused .reservedSelector ∧ exec .opReserved13 s = .refused .reservedSelector ∧
    exec .opReserved14 s = .refused .reservedSelector ∧ exec .opReserved15 s = .refused .reservedSelector

/-- Where the spec says that a model refuses an operation, it is refused by name and never masked or truncated (30 R116, 10
R35, 42 R186 to R188, 93 U5, U7, U13). That the refusals come after NOT_INITIALIZED is log 30, that a mirror list longer than
a finite MIRROR_MAX (00 R10) is one of them is log 16, that INIT is refused during an AUTO_CONFIG is log 16 over the steps of
log 1, and that MIRROR_TICK is refused for a stale entry which does not fire is
log 26. -/
def Obligations.RefusalsAreByName : Prop :=
  (∀ s : State, s.Ready →
    (∀ a payload, exec (.sendMessage a 7 payload) s = .refused (.operandOutOfRange .classNotData)) ∧
    (∀ a len buf, exec (.receiveMessage a 7 len buf) s = .refused (.operandOutOfRange .classNotData)) ∧
    (∀ a c payload, c ≠ 7 → s.params.maxPayload < payload.length →
      exec (.sendMessage a c payload) s = .refused .payloadTooLong) ∧
    (∀ a c len buf, c ≠ 7 → s.params.maxPayload < len.toNat →
      exec (.receiveMessage a c len buf) s = .refused .payloadTooLong) ∧
    (∀ decls : List Decl, (∃ d ∈ decls, d.addr = 0 ∨ d.addr = 31) ∨ ¬(decls.map Decl.addr).Nodup →
      ∃ e, exec (.defineDevices decls) s = .refused (.operandOutOfRange e)) ∧
    (∀ decls : List Decl, (∀ d ∈ decls, d.addr ≠ 0 ∧ d.addr ≠ 31) → (decls.map Decl.addr).Nodup →
      (∃ d ∈ decls, ∃ slot ∈ d.slots.toList, s.params.maxPayload < slot.len.toNat) →
      exec (.defineDevices decls) s = .refused .payloadTooLong) ∧
    (∀ defs : List MirrorDef, (∃ d ∈ defs, d.slot = 7 ∨ ¬d.phase < d.period) →
      ∃ e, exec (.defineMirroring defs) s = .refused (.operandOutOfRange e)) ∧
    (∀ defs : List MirrorDef, (∀ d ∈ defs, d.slot ≠ 7 ∧ d.phase < d.period) →
      (∃ d ∈ defs, (s.master.decl d.addr).valid = false ∨ (s.master.slotOf d.addr d.slot).used = false ∨
        d.size < (s.master.slotOf d.addr d.slot).len) →
      exec (.defineMirroring defs) s = .refused .mirrorNotDeclared) ∧
    (∀ (defs : List MirrorDef) (k : Nat),
      (∀ d ∈ defs, d.slot ≠ 7 ∧ d.phase < d.period ∧ (s.master.decl d.addr).valid = true ∧
        (s.master.slotOf d.addr d.slot).used = true ∧ (s.master.slotOf d.addr d.slot).len ≤ d.size) →
      s.params.mirrorMax = some k → k < defs.length → exec (.defineMirroring defs) s = .refused .mirrorTableFull) ∧
    ((∃ e ∈ s.master.mirror, (s.master.decl e.addr).valid = false ∨ (s.master.slotOf e.addr e.slot).used = false) →
      exec .mirrorTick s = .refused .staleMirrorEntry)) ∧
  (∀ (s : State) (i : Instr), s.master.initialized = true → s.master.autoPasses.isSome = true →
    isPublicOp i = true ∨ (∃ mutex, i = .init mutex) → exec i s = .refused .operationInProgress)

/-- SEND_MESSAGE (42 R182, R185; 60 R350): one exchange of the built frame; the code follows from the bytes read, in the
order of the tests, and only the exchange buffers and the result are written. That the count test is `n = W + 1` for a break
that does not echo, too, is log 24. -/
def Obligations.SendMessageReturnsItsVerdict : Prop :=
  ∀ (s : State) (a : Addr) (c : MsgClass) (payload f : List Byte) (e : Nat),
    s.Ready → c ≠ 7 → payload.length ≤ s.params.maxPayload →
    f = buildWriteFrame s.params a c payload → e = hdrWin s.params + payload.length + 2 →
      ∃ (t : State) (rx : List Byte), exec (.sendMessage a c payload) s = .next t ∧ ExchangesOnly s t ∧
        t.master.txbuf = f ∧ t.master.rxbuf = rx ∧ t.master.n = rx.length ∧ rx = t.bus.stream.take e ∧
        t.master.result = some
          (if rx.length = f.length + 1 then .noResponse
           else if rx.length < e then .timeout
           else if (rx.drop (hdrWin s.params)).take (payload.length + 1) ≠ payload ++ [payloadCrc s.params payload] then
             .crcError
           else if rx.getLast? ≠ some 0x55 then .notAcknowledged
           else .ok)

/-- RECEIVE_MESSAGE (42 R183, R185): one exchange of the read request; on OK the caller's buffer holds the payload of the
reply window, otherwise its contents are unspecified; no byte outside the buffer changes. The count test for a break that
does not echo is log 24, the buffer's addresses log 12, the bytes outside a failed buffer log 13. -/
def Obligations.ReceiveMessageReturnsItsVerdict : Prop :=
  ∀ (s : State) (a : Addr) (c : MsgClass) (len : Byte) (buf : BufRef) (e : Nat),
    s.Ready → Memory.wf s.mem = true → c ≠ 7 → len.toNat ≤ s.params.maxPayload → e = hdrWin s.params + len.toNat + 1 →
      ∃ (t : State) (rx : List Byte), exec (.receiveMessage a c len buf) s = .next t ∧
        ExchangesAndStores buf.toNat len.toNat s t ∧
        t.master.txbuf = buildReadRequest s.params a c ∧ t.master.rxbuf = rx ∧ t.master.n = rx.length ∧
        rx = t.bus.stream.take e ∧
        t.master.result = some
          (if rx.length = 2 + 1 then .noResponse
           else if rx.length < e then .timeout
           else if payloadOk s.params (rx.drop (hdrWin s.params)) = false then .crcError
           else .ok) ∧
        (t.master.result = some .ok →
          Memory.load buf.toNat len.toNat t.mem = (rx.drop (hdrWin s.params)).take len.toNat)

/-- SEND_CMD_MESSAGE (42 R184, R185): one exchange of the command frame, the request passed through unchecked; on OK
`response_out` holds the response. The count test for a break that does not echo is log 24, the buffer's addresses log 12,
the bytes outside a failed buffer log 13. -/
def Obligations.SendCommandReturnsItsVerdict : Prop :=
  ∀ (s : State) (a : Addr) (request : Vector Byte 5) (out : BufRef) (e : Nat),
    s.Ready → Memory.wf s.mem = true → e = hdrWin s.params + 5 + 1 + 5 + 1 →
      ∃ (t : State) (rx : List Byte), exec (.sendCmdMessage a request out) s = .next t ∧
        ExchangesAndStores out.toNat 5 s t ∧
        t.master.txbuf = buildCmdFrame s.params a request ∧ t.master.rxbuf = rx ∧ t.master.n = rx.length ∧
        rx = t.bus.stream.take e ∧
        t.master.result = some
          (if rx.length = 8 + 1 then .noResponse
           else if rx.length < e then .timeout
           else if payloadOk s.params (rx.drop (hdrWin s.params + 6)) = false then .crcError
           else .ok) ∧
        (t.master.result = some .ok →
          Memory.load out.toNat 5 t.mem = (rx.drop (hdrWin s.params + 6)).take 5)

/-- DEFINE_DEVICES (42 R186): the directory holds exactly the list's declarations; the entries not in the list keep nothing
but what is behind their cleared valid bit; the mirror table and everything else are untouched. -/
def Obligations.DefineDevicesReplacesTheDirectory : Prop :=
  ∀ (s : State) (decls : List Decl), s.Ready → (∀ d ∈ decls, d.addr ≠ 0 ∧ d.addr ≠ 31) → (decls.map Decl.addr).Nodup →
    (∀ d ∈ decls, ∀ slot ∈ d.slots.toList, slot.len.toNat ≤ s.params.maxPayload) →
    ∃ t : State, exec (.defineDevices decls) s = .next t ∧
      t = { s with master := { s.master with dir := t.master.dir, result := some .ok } } ∧
      (∀ d ∈ decls, t.master.decl d.addr = ⟨true, d.devType, d.slots⟩) ∧
      (∀ a : Addr, (∀ d ∈ decls, d.addr ≠ a) → t.master.decl a = { s.master.decl a with valid := false })

/-- DEFINE_MIRRORING (42 R187): the table is the list, in order, every ticker 0; nothing else changes. -/
def Obligations.DefineMirroringInstallsTheTable : Prop :=
  ∀ (s : State) (defs : List MirrorDef), s.Ready →
    (∀ d ∈ defs, (s.master.decl d.addr).valid = true ∧ d.slot ≠ 7 ∧ (s.master.slotOf d.addr d.slot).used = true ∧
      1 ≤ d.period ∧ d.phase < d.period ∧ (s.master.slotOf d.addr d.slot).len ≤ d.size) →
    (∀ k, s.params.mirrorMax = some k → defs.length ≤ k) →
      exec (.defineMirroring defs) s =
        .next { s with master := { s.master with
          mirror := defs.map (fun d => ⟨d.addr, d.slot, d.buf, d.size, d.period, d.phase, 0⟩), result := some .ok } }

/-- MIRROR_TICK (42 R188, 60 R351): every ticker moves on modulo its period whatever fails; a failure is reported with the
address of an entry that fired (which one: MirrorTransferIsOneExchange); without a failure `failed_address` stays; where no
entry fires nothing is sent. No byte of memory changes but in the buffers of the read entries that fire (log 12). -/
def Obligations.MirrorTickMovesEveryTicker : Prop :=
  ∀ s : State, s.Ready → Memory.wf s.mem = true →
    (∀ e ∈ s.master.mirror, s.master.declares e.addr e.slot = true) →
      ∃ t : State, exec .mirrorTick s = .next t ∧
        t.params = s.params ∧ t.inputs = s.inputs ∧ t.codecOut = s.codecOut ∧
        t.master = { s.master with
          mirror := s.master.mirror.map (fun e => { e with ticker := (e.ticker + 1) % e.period })
          txbuf := t.master.txbuf, rxbuf := t.master.rxbuf, n := t.master.n
          result := t.master.result, failedAddress := t.master.failedAddress } ∧
        (t.master.result = some .ok → t.master.failedAddress = s.master.failedAddress) ∧
        (t.master.result ≠ some .ok →
          t.master.result ∈ [some .noResponse, some .timeout, some .crcError, some .notAcknowledged] ∧
          ∃ e ∈ s.master.mirror, e.ticker = e.phase ∧ t.master.failedAddress = e.addr) ∧
        ((∀ e ∈ s.master.mirror, e.ticker ≠ e.phase) →
          t.master.result = some .ok ∧ t.slaves = s.slaves ∧ t.bus = s.bus ∧ t.free = s.free ∧ t.mem = s.mem) ∧
        (∀ x, (∀ e ∈ s.master.mirror, e.ticker = e.phase → (s.master.slotOf e.addr e.slot).dir = .s2m →
            x < e.buf.toNat ∨ e.buf.toNat + (s.master.slotOf e.addr e.slot).len.toNat ≤ x) →
          Memory.read t.mem x = Memory.read s.mem x)

/-- The scheduler's law (42 R188): with every ticker at 0, before the call whose 0-based count is `k` the ticker of an entry
is `k` modulo its period, so that the entry fires on exactly the calls whose count modulo the period is its phase; all the
calls complete. -/
def Obligations.MirrorEntryFiresOncePerPeriod : Prop :=
  ∀ (s : State) (k : Nat), s.Ready →
    (∀ e ∈ s.master.mirror, s.master.declares e.addr e.slot = true ∧ e.phase < e.period ∧ e.ticker = 0) →
      ∃ t : State, execTimes .mirrorTick k s = some t ∧
        t.master.mirror =
          s.master.mirror.map (fun e => { e with ticker := BitVec.ofNat 16 (k % e.period.toNat) }) ∧
        ∀ (i : Nat) (e e' : MirrorEntry), s.master.mirror[i]? = some e → t.master.mirror[i]? = some e' →
          (e'.ticker = e'.phase ↔ k % e.period.toNat = e.phase.toNat)

/-- The transfers of a mirror tick (42 R188): those of the entries that fire, in table order and whatever fails, each one
SEND_MESSAGE or one RECEIVE_MESSAGE in the direction its slot declares, with the entry's buffer, on the state the transfer
before left; the code and the address reported are those of the first that is not OK. -/
def Obligations.MirrorTransferIsOneExchange : Prop :=
  ∀ s : State, s.Ready →
    (∀ e ∈ s.master.mirror, s.master.declares e.addr e.slot = true ∧ e.slot ≠ 7 ∧
      (s.master.slotOf e.addr e.slot).len.toNat ≤ s.params.maxPayload) →
      ∃ (codes : List (Addr × Option ResultCode)) (u : State),
        transferAll (s.master.mirror.filter fun e => e.ticker = e.phase)
          { s with master := { s.master with
              mirror := s.master.mirror.map fun e => { e with ticker := (e.ticker + 1) % e.period } } } =
          some (codes, u) ∧
        exec .mirrorTick s = .next { u with master := { u.master with
          result := ((codes.find? fun r => r.2 ≠ some .ok).map (·.2)).getD (some .ok)
          failedAddress := ((codes.find? fun r => r.2 ≠ some .ok).map (·.1)).getD s.master.failedAddress } }

/-- RENUM_ID (42 R189): attempts of RENUM at the old address until one is OK, at most 1000; the code is that of the last
attempt made; only the exchange buffers and the result are written. -/
def Obligations.RenumIdTriesUntilOk : Prop :=
  ∀ (s : State) (old new : Addr), s.Ready →
    ∃ k < 1000,
      (∀ j < k, attemptCode old new j (lockMutex s) ≠ .ok) ∧
      (attemptCode old new k (lockMutex s) ≠ .ok → k = 999) ∧
      exec (.renumId old new) s =
        .next (report (attemptCode old new k (lockMutex s))
          (unlockMutex (afterAttempts old new (k + 1) (lockMutex s)))) ∧
      ExchangesOnly s
        (report (attemptCode old new k (lockMutex s)) (unlockMutex (afterAttempts old new (k + 1) (lockMutex s))))

/-- CHECK_CONFIG (42 R190, 60 R351) returns OK, a code of an exchange, or TYPE_CONFLICT; `failed_address` is a declared
address from 1 to 30 where it fails and untouched where it does not; with nothing declared it returns OK at once. -/
def Obligations.CheckConfigReportsADeclaredAddress : Prop :=
  ∀ s : State, s.Ready →
    (∃ t : State, exec .checkConfig s = .next t ∧
      ExchangesOnly { s with master := { s.master with failedAddress := t.master.failedAddress } } t ∧
      t.master.result ∈
        [some .ok, some .noResponse, some .timeout, some .crcError, some .typeConflict] ∧
      (t.master.result = some .ok → t.master.failedAddress = s.master.failedAddress) ∧
      (t.master.result ≠ some .ok → (s.master.decl t.master.failedAddress).valid = true ∧
        t.master.failedAddress ≠ 0 ∧ t.master.failedAddress ≠ 31)) ∧
    ((∀ a : Addr, a ≠ 0 → a ≠ 31 → (s.master.decl a).valid = false) →
      exec .checkConfig s = .next { s with master := { s.master with result := some .ok } })

/-- AUTO_CONFIG (43 R230 to R238) pass by pass: the call and every later step complete; after each the call either is in
progress with one pass more, or has returned one of its codes with the output array equal to the scan table. A pass over
the cap returns PASS_LIMIT and sends nothing, the call's own first pass at a cap of 0 among them. Every other pass scans 1
to 30 in order: what is confirmed stays, and for every other address the code of PROBE then INQUIRE, made on the state the
address before left, is recorded, with the reported type where both are OK (`ScanStep`, R232). It then ends as the rules of
S2 to S5 say (`PassEnds`, R233 to R236): a conflicted device renumbered to a free address or NO_FREE_ADDRESS, extra
devices to missing addresses, mismatched pairs swapped through address 0 or TYPE_CONFLICT, the first renumber that fails, or
the status of the two flags. That one pass is one step is the model's choice, log 1; the free choices are log 19; that
INITIALISE leaves the type table as it was is log 33; that every conflicted address is scanned again after a restart, not
only the two of the renumber, is log 34. -/
def Obligations.AutoConfigGoesOnPassByPass : Prop :=
  (∀ s : State, s.Ready →
    ∃ t : State, exec .autoConfig s = .next t ∧ AutoConfigOnly s t ∧
      ((t.master.autoPasses = some 1 ∧ t.master.result = none) ∨
        (t.master.autoPasses = none ∧ t.master.resultPerAddress = t.master.res ∧
          t.master.mutexDepth = s.master.mutexDepth ∧ ∃ r ∈ autoConfigCodes, t.master.result = some r))) ∧
  (∀ (s : State) (k : Nat), s.master.autoPasses = some k →
    ∃ t : State, step s = .next t ∧ AutoConfigOnly s t ∧
      ((t.master.autoPasses = some (k + 1) ∧ t.master.mutexDepth = s.master.mutexDepth) ∨
        (t.master.autoPasses = none ∧ t.master.resultPerAddress = t.master.res ∧
          ∃ r ∈ autoConfigCodes, t.master.result = some r)) ∧
      (∀ m, s.params.autocfgMaxPasses = some m → m ≤ k →
        t.master.result = some .passLimit ∧ t.master.autoPasses = none ∧ t.master.resultPerAddress = s.master.res ∧
        t.slaves = s.slaves ∧ t.bus = s.bus)) ∧
  (∀ (s : State) (k : Nat) (a : Addr),
    (s.master.resOf a = .ok ∨ s.master.resOf a = .noResponse ∨ ¬Usable a →
      (s.scanned k).master.resOf a = s.master.resOf a ∧ (s.scanned k).master.typeOf a = s.master.typeOf a) ∧
    (Usable a → (s.scanned k).master.resOf a ≠ .rescan)) ∧
  (∀ (s : State) (k : Nat), ∃ u : Nat → State,
    u 1 = { s with master := { s.master with autoPasses := some k } } ∧ u 31 = s.scanned k ∧
    ∀ a : Addr, Usable a → ScanStep a (u a.toNat) (u (a.toNat + 1)) ∧
      (s.scanned k).master.resOf a = (u (a.toNat + 1)).master.resOf a ∧
      (s.scanned k).master.typeOf a = (u (a.toNat + 1)).master.typeOf a) ∧
  (∀ s : State, s.Ready → s.params.autocfgMaxPasses = some 0 →
    ∃ t : State, exec .autoConfig s = .next t ∧ t.master.result = some .passLimit ∧ t.master.autoPasses = none ∧
      (∀ a : Addr, t.master.resultPerAddress.get a.toFin = .rescan) ∧ t.slaves = s.slaves ∧ t.bus = s.bus) ∧
  (∀ s : State, s.Ready → s.params.autocfgMaxPasses ≠ some 0 →
    ∃ (r : Option ResultCode) (t : State), PassEnds (s.autoStarted.scanned 1) r t ∧
      exec .autoConfig s = .next (passOutcome r t)) ∧
  (∀ (s : State) (k : Nat), s.master.autoPasses = some k → (∀ m, s.params.autocfgMaxPasses = some m → k < m) →
    ∃ (r : Option ResultCode) (t : State), PassEnds (s.scanned (k + 1)) r t ∧ step s = .next (passOutcome r t))

/-! ## Exchanges with a silent and with a healthy network -/

/-- NO_RESPONSE (60 R342, 42 R185): on a clean bus where no slave has the address, each of the three exchanges and RENUM_ID
returns NO_RESPONSE. The break echoes as one byte, the spec's default (D2). -/
def Obligations.SilentAddressGivesNoResponse : Prop :=
  ∀ (s : State) (a : Addr), s.Ready → s.CleanBus → CrcLaws s.params → s.params.breakEchoBytes = 1 →
    (∀ sl ∈ s.slaves, sl.ownAddr ≠ a) →
    (∀ (c : MsgClass) (payload : List Byte), c ≠ 7 → payload.length ≤ s.params.maxPayload →
      ∃ t, exec (.sendMessage a c payload) s = .next t ∧ t.master.result = some .noResponse) ∧
    (∀ (c : MsgClass) (len : Byte) (buf : BufRef), c ≠ 7 → len.toNat ≤ s.params.maxPayload →
      ∃ t, exec (.receiveMessage a c len buf) s = .next t ∧ t.master.result = some .noResponse) ∧
    (∀ (request : Vector Byte 5) (out : BufRef),
      ∃ t, exec (.sendCmdMessage a request out) s = .next t ∧ t.master.result = some .noResponse) ∧
    (∀ new : Addr, ∃ t, exec (.renumId a new) s = .next t ∧ t.master.result = some .noResponse)

/-- A write to a healthy slave among others returns OK and the slave has stored the payload (42 R182, 44 R264 to R275). On a
disturbed line (90 C6; disturbances are log 22): a payload or CRC byte corrupted at the master alone gives CRC_ERROR and a
corrupted acknowledge NOT_ACKNOWLEDGED, though the slave stored the payload (70 R404); a payload or CRC byte corrupted for
everybody gives NO_RESPONSE, and the device is not told the end. The default break echo is assumed; the device is log 14. -/
def Obligations.HealthyWriteReturnsOk : Prop :=
  ∀ (s : State) (k : Nat) (sl : Slave) (a : Addr) (c : MsgClass) (h hc : Byte) (payload : List Byte) (more : Nat),
    s.Ready → s.Addressed k sl a → s.params.breakEchoBytes = 1 → s.TimeFor 1 → c ≠ 7 →
    h = makeHeader c a → hc = headerCrc s.params h →
    sl.dev.kind c = .receive more → payload.length = more + 1 → payload.length ≤ s.params.maxPayload →
      (∃ t, exec (.sendMessage a c payload) s = .next t ∧ t.master.result = some .ok ∧
        t.master.rxbuf = s.echo ++ buildWriteFrame s.params a c payload ++ [0x55] ∧
        t.slaves = s.othersDiscard h hc k (sl.stored h payload) ∧ t.mem = s.mem) ∧
      (∀ (i : Nat) (mask : Byte), i ≤ payload.length → mask ≠ 0 →
        ∃ t, exec (.sendMessage a c payload) (s.disturbed (onlySlot (2 + i) (.flipAtMaster mask))) = .next t ∧
          t.master.result = some .crcError ∧ t.slaves = s.othersDiscard h hc k (sl.stored h payload)) ∧
      (∀ mask : Byte, mask ≠ 0 →
        ∃ t, exec (.sendMessage a c payload) (s.disturbed (onlySlot (3 + payload.length) (.flipAtMaster mask))) = .next t ∧
          t.master.result = some .notAcknowledged ∧ t.slaves = s.othersDiscard h hc k (sl.stored h payload)) ∧
      (∀ (i : Nat) (mask : Byte), i ≤ payload.length → mask ≠ 0 →
        ∃ t, exec (.sendMessage a c payload) (s.disturbed (onlySlot (2 + i) (.flipAll mask))) = .next t ∧
          t.master.result = some .noResponse ∧
          t.slaves = s.othersDiscard h hc k (sl.spoiled s.params h
            ((payload ++ [payloadCrc s.params payload]).modify i (· ^^^ mask))))

/-- A read from a healthy slave among others whose slot has the length asked for returns OK and the buffer holds the reply
(42 R183, 44 R276); a reply byte or its CRC corrupted on the way to the master gives CRC_ERROR, and the slave does not notice
(40 R149, 44 R279; disturbances are log 22). The default break echo is assumed; the bytes are free (log 14). -/
def Obligations.HealthyReadFillsTheBuffer : Prop :=
  ∀ (s : State) (k : Nat) (sl : Slave) (a : Addr) (c : MsgClass) (h hc len : Byte) (buf : BufRef) (reply : List Byte),
    s.Ready → s.Addressed k sl a → Memory.wf s.mem = true → s.params.breakEchoBytes = 1 → s.TimeFor (len.toNat + 1) →
    c ≠ 7 → h = makeHeader c a → hc = headerCrc s.params h →
    sl.dev.kind c = .transmit len.toNat → len.toNat ≤ s.params.maxPayload →
    reply = (Free.drawList len.toNat s.freeAfterEcho).1 →
      (∃ t, exec (.receiveMessage a c len buf) s = .next t ∧ t.master.result = some .ok ∧
        Memory.load buf.toNat len.toNat t.mem = reply ∧
        t.slaves = s.othersDiscard h hc k (sl.replied s.params h reply)) ∧
      (∀ (i : Nat) (mask : Byte), i ≤ len.toNat → mask ≠ 0 →
        ∃ t, exec (.receiveMessage a c len buf) (s.disturbed (onlySlot (2 + i) (.flipAtMaster mask))) = .next t ∧
          t.master.result = some .crcError ∧ t.slaves = s.othersDiscard h hc k (sl.replied s.params h reply))

/-- INQUIRE of a healthy slave among others returns OK and `response_out` holds its identity and button (42 R184, R191; 44
R273). PROBE of an address that two slaves share reads the wired-AND of their replies, and its code is that of the check on
this AND; neither slave notices (20 R76, 44 R279, 70 R405). The default break echo is assumed. -/
def Obligations.HealthyInquireReturnsTheIdentity : Prop :=
  (∀ (s : State) (k : Nat) (sl : Slave) (a : Addr) (out : BufRef),
    s.Ready → s.Addressed k sl a → Memory.wf s.mem = true → s.params.breakEchoBytes = 1 → s.TimeFor 6 →
      ∃ (t : State) (btn : Bool), exec (.sendCmdMessage a #v[2, 0, 0, 0, 0] out) s = .next t ∧
        t.master.result = some .ok ∧
        Memory.load out.toNat 5 t.mem = (encodeInquire sl.devType sl.fwVer sl.hwRev btn).toList) ∧
  (∀ (s : State) (j k : Nat) (x y : Slave) (a : Addr) (out : BufRef) (f g line : List Byte) (free : Free),
    s.Ready → s.CleanBus → CrcLaws s.params → s.params.breakEchoBytes = 1 → s.TimeFor 6 → j < k →
    s.slaves[j]? = some x → s.slaves[k]? = some y →
    (∀ (i : Nat) (sl : Slave), s.slaves[i]? = some sl → (sl.ownAddr = a ↔ i = j ∨ i = k)) →
    Free.drawList 5 s.freeAfterEcho = (f, free) → g = (Free.drawList 5 free).1 →
    line = List.zipWith (· &&& ·) (f ++ [payloadCrc s.params f]) (g ++ [payloadCrc s.params g]) →
      ∃ t : State, exec (.sendCmdMessage a #v[0, 0, 0, 0, 0] out) s = .next t ∧
        t.master.rxbuf = s.echo ++ buildCmdFrame s.params a #v[0, 0, 0, 0, 0] ++ line ∧
        t.master.result = some (if payloadOk s.params line = true then .ok else .crcError) ∧
        t.slaves.map (fun sl => (sl.st, sl.ownAddr, sl.eepromAddr)) =
          s.slaves.map (fun sl => (SlaveState.waitBreak, sl.ownAddr, sl.eepromAddr)))

/-- RENUM_ID of a healthy slave among others returns OK after one attempt and the slave lives at the new address (42 R189, 45
R326). The default break echo is assumed; the time premise rests on log 8 and log 17. -/
def Obligations.HealthyRenumberMovesTheSlave : Prop :=
  ∀ (s : State) (k : Nat) (sl : Slave) (old new : Addr) (h hc : Byte),
    s.Ready → s.Addressed k sl old → s.params.breakEchoBytes = 1 → s.TimeToRenumber →
    h = makeHeader 7 old → hc = headerCrc s.params h →
      ∃ t, exec (.renumId old new) s = .next t ∧ t.master.result = some .ok ∧
        t.slaves = s.othersDiscard h hc k (sl.renumbered s.params h (renumRequest new)
          (fiveOf (Free.drawList 5 s.freeAfterEcho).1) new)

/-- CHECK_CONFIG of any number of declared devices (42 R190): OK if one slave of the declared type lives at each; else the
lowest declared address where that fails is reported, TYPE_CONFLICT if one slave of another type lives there, NO_RESPONSE if
nobody does. The default break echo is assumed. -/
def Obligations.CheckConfigComparesTheType : Prop :=
  ∀ s : State, s.Ready → s.CleanBus → CrcLaws s.params → s.params.breakEchoBytes = 1 → s.TimeFor 6 →
    ((∀ a : Addr, Usable a → (s.master.decl a).valid = true → s.Agrees a) →
      ∃ t, exec .checkConfig s = .next t ∧ t.master.result = some .ok ∧
        t.master.failedAddress = s.master.failedAddress) ∧
    (∀ a : Addr, Usable a → (s.master.decl a).valid = true →
      (∀ b : Addr, b < a → Usable b → (s.master.decl b).valid = true → s.Agrees b) →
        (∀ (k : Nat) (sl : Slave), s.Addressed k sl a → sl.devType ≠ (s.master.decl a).devType →
          ∃ t, exec .checkConfig s = .next t ∧ t.master.result = some .typeConflict ∧ t.master.failedAddress = a) ∧
        ((∀ sl ∈ s.slaves, sl.ownAddr ≠ a) →
          ∃ t, exec .checkConfig s = .next t ∧ t.master.result = some .noResponse ∧ t.master.failedAddress = a))

/-- AUTO_CONFIG on a network where nobody lives at 1 to 30 (43 R232, R236): one pass, OK, and the array says no-response
everywhere but at 0 and 31, whatever is declared. -/
def Obligations.AutoConfigOfAnEmptyNetwork : Prop :=
  ∀ s : State, s.Ready → s.CleanBus → CrcLaws s.params → s.params.breakEchoBytes = 1 →
    (∀ sl ∈ s.slaves, sl.ownAddr = 0 ∨ sl.ownAddr = 31) → s.params.autocfgMaxPasses ≠ some 0 →
      ∃ t, exec .autoConfig s = .next t ∧ t.master.autoPasses = none ∧ t.master.result = some .ok ∧
        (∀ a : Addr, t.master.resultPerAddress.get a.toFin = if a = 0 ∨ a = 31 then .rescan else .noResponse) ∧
        t.slaves.map (·.ownAddr) = s.slaves.map (·.ownAddr)

/-! ## The whole machine -/

/-- Who writes which register of the master (42 R180 to R193): each is changed by its own operations only, the exchange
buffers by the operations that exchange (10 R39), and every host operation that returns leaves a result code. Wire frames
change nothing of the master (log 10), codec functions nothing but the answer (log 11). -/
def Obligations.RegistersBelongToTheirOperations : Prop :=
  ∀ (i : Instr) (s t : State), exec i s = .next t →
    t.params = s.params ∧ t.inputs = s.inputs ∧ t.master.timeoutUs = s.master.timeoutUs ∧
    ((∀ mutex, i ≠ .init mutex) →
      t.master.initialized = s.master.initialized ∧ t.master.transport = s.master.transport) ∧
    ((∀ decls, i ≠ .defineDevices decls) → t.master.dir = s.master.dir) ∧
    ((∀ defs, i ≠ .defineMirroring defs) → i ≠ .mirrorTick → t.master.mirror = s.master.mirror) ∧
    (i ≠ .mirrorTick → i ≠ .checkConfig → t.master.failedAddress = s.master.failedAddress) ∧
    (i ≠ .autoConfig →
      t.master.res = s.master.res ∧ t.master.rtype = s.master.rtype ∧ t.master.renumbered = s.master.renumbered ∧
      t.master.swapped = s.master.swapped ∧ t.master.resultPerAddress = s.master.resultPerAddress ∧
      t.master.autoPasses = s.master.autoPasses ∧ t.master.mutexDepth = s.master.mutexDepth) ∧
    (isExchangeOp i = false →
      t.master.txbuf = s.master.txbuf ∧ t.master.rxbuf = s.master.rxbuf ∧ t.master.n = s.master.n) ∧
    ((encode i).port = .host → i ≠ .autoConfig → t.master.result.isSome = true) ∧
    ((encode i).port = .wire → t.master = s.master ∧ t.mem = s.mem ∧ t.codecOut = s.codecOut) ∧
    ((encode i).port = .host → t.codecOut = s.codecOut) ∧
    ((encode i).port = .codec → t = { s with codecOut := t.codecOut })

/-- Which bytes of memory an instruction may change (42 R183, R184, R188): those of the buffer of a receive, of a command's
`response_out`, and of the read entries a mirror tick fires; every other instruction leaves all of memory alone. -/
def Obligations.MemoryBelongsToTheReceivers : Prop :=
  ∀ (i : Instr) (s t : State), exec i s = .next t → Memory.wf s.mem = true →
    ∀ x, Memory.read t.mem x ≠ Memory.read s.mem x →
      (∃ a c len buf, i = .receiveMessage a c len buf ∧ buf.toNat ≤ x ∧ x < buf.toNat + len.toNat) ∨
      (∃ a request out, i = .sendCmdMessage a request out ∧ out.toNat ≤ x ∧ x < out.toNat + 5) ∨
      (i = .mirrorTick ∧ ∃ e ∈ s.master.mirror, e.ticker = e.phase ∧
        (s.master.slotOf e.addr e.slot).dir = .s2m ∧
        e.buf.toNat ≤ x ∧ x < e.buf.toNat + (s.master.slotOf e.addr e.slot).len.toNat)

/-- Every step keeps the invariant of the system: memory canonical, every slot within MAX_PAYLOAD, the timeout the configured one, no break left on the line,
bytes in flight only from slaves that exist, every slave and the master sound. -/
def Obligations.StepKeepsTheSystemSound : Prop :=
  ∀ s t : State, s.Inv → step s = .next t → t.Inv

/-- The system after reset meets the invariant, whatever its parameters and slaves. Its clauses on the scan table, the output
array and the exchange buffers rest on reset values that the model chose, log 4. -/
def Obligations.ResetMeetsTheInvariant : Prop :=
  State.reset.Inv ∧ ∀ (p : Params) (cs : List SlaveConfig), (State.afterReset p cs).Inv

/-- No step changes the parameters, how many slaves there are, or a slave's identifiers and catalog (10 R27, 00 R16). -/
def Obligations.IdentityNeverChanges : Prop :=
  ∀ s t : State, step s = .next t →
    t.params = s.params ∧
    t.slaves.map (fun sl => (sl.devType, sl.fwVer, sl.hwRev, sl.dev.catalog)) =
      s.slaves.map (fun sl => (sl.devType, sl.fwVer, sl.hwRev, sl.dev.catalog))

end
end

