-- ==== Sys2Proof/Laws/State.lean ====
section
/-! SUPPORT. One lemma per field per update: what each named update of a record leaves and writes, true by unfolding once. -/

namespace Sys2Proof.Machine


/-! ## updMaster -/

@[simp] theorem updMaster_params (g : Master → Master) (s : State) : (s.updMaster g).params = s.params := rfl
@[simp] theorem updMaster_master (g : Master → Master) (s : State) : (s.updMaster g).master = g s.master := rfl
@[simp] theorem updMaster_slaves (g : Master → Master) (s : State) : (s.updMaster g).slaves = s.slaves := rfl
@[simp] theorem updMaster_bus (g : Master → Master) (s : State) : (s.updMaster g).bus = s.bus := rfl
@[simp] theorem updMaster_mem (g : Master → Master) (s : State) : (s.updMaster g).mem = s.mem := rfl
@[simp] theorem updMaster_free (g : Master → Master) (s : State) : (s.updMaster g).free = s.free := rfl
@[simp] theorem updMaster_inputs (g : Master → Master) (s : State) : (s.updMaster g).inputs = s.inputs := rfl
@[simp] theorem updMaster_codecOut (g : Master → Master) (s : State) : (s.updMaster g).codecOut = s.codecOut := rfl

/-! ## hear -/

@[simp] theorem hear_params (bs : List Byte) (s : State) : (s.hear bs).params = s.params := rfl
@[simp] theorem hear_master (bs : List Byte) (s : State) : (s.hear bs).master = s.master := rfl
@[simp] theorem hear_slaves (bs : List Byte) (s : State) : (s.hear bs).slaves = s.slaves := rfl
@[simp] theorem hear_bus (bs : List Byte) (s : State) : (s.hear bs).bus = { s.bus with stream := s.bus.stream ++ bs } := rfl
@[simp] theorem hear_mem (bs : List Byte) (s : State) : (s.hear bs).mem = s.mem := rfl
@[simp] theorem hear_free (bs : List Byte) (s : State) : (s.hear bs).free = s.free := rfl
@[simp] theorem hear_inputs (bs : List Byte) (s : State) : (s.hear bs).inputs = s.inputs := rfl
@[simp] theorem hear_codecOut (bs : List Byte) (s : State) : (s.hear bs).codecOut = s.codecOut := rfl

/-! ## storeBuf -/

@[simp] theorem storeBuf_params (buf : BufRef) (bs : List Byte) (s : State) : (storeBuf buf bs s).params = s.params := rfl
@[simp] theorem storeBuf_master (buf : BufRef) (bs : List Byte) (s : State) : (storeBuf buf bs s).master = s.master := rfl
@[simp] theorem storeBuf_slaves (buf : BufRef) (bs : List Byte) (s : State) : (storeBuf buf bs s).slaves = s.slaves := rfl
@[simp] theorem storeBuf_bus (buf : BufRef) (bs : List Byte) (s : State) : (storeBuf buf bs s).bus = s.bus := rfl
@[simp] theorem storeBuf_mem (buf : BufRef) (bs : List Byte) (s : State) : (storeBuf buf bs s).mem = Memory.store buf.toNat bs s.mem := rfl
@[simp] theorem storeBuf_free (buf : BufRef) (bs : List Byte) (s : State) : (storeBuf buf bs s).free = s.free := rfl
@[simp] theorem storeBuf_inputs (buf : BufRef) (bs : List Byte) (s : State) : (storeBuf buf bs s).inputs = s.inputs := rfl
@[simp] theorem storeBuf_codecOut (buf : BufRef) (bs : List Byte) (s : State) : (storeBuf buf bs s).codecOut = s.codecOut := rfl

/-! ## spoilBuf -/

@[simp] theorem spoilBuf_params (buf : BufRef) (n : Nat) (s : State) : (spoilBuf buf n s).params = s.params := rfl
@[simp] theorem spoilBuf_master (buf : BufRef) (n : Nat) (s : State) : (spoilBuf buf n s).master = s.master := rfl
@[simp] theorem spoilBuf_slaves (buf : BufRef) (n : Nat) (s : State) : (spoilBuf buf n s).slaves = s.slaves := rfl
@[simp] theorem spoilBuf_bus (buf : BufRef) (n : Nat) (s : State) : (spoilBuf buf n s).bus = s.bus := rfl
@[simp] theorem spoilBuf_mem (buf : BufRef) (n : Nat) (s : State) : (spoilBuf buf n s).mem = Memory.store buf.toNat (Free.drawList n s.free).1 s.mem := rfl
@[simp] theorem spoilBuf_free (buf : BufRef) (n : Nat) (s : State) : (spoilBuf buf n s).free = (Free.drawList n s.free).2 := rfl
@[simp] theorem spoilBuf_inputs (buf : BufRef) (n : Nat) (s : State) : (spoilBuf buf n s).inputs = s.inputs := rfl
@[simp] theorem spoilBuf_codecOut (buf : BufRef) (n : Nat) (s : State) : (spoilBuf buf n s).codecOut = s.codecOut := rfl

/-! ## report -/

@[simp] theorem report_params (r : ResultCode) (s : State) : (report r s).params = s.params := rfl
@[simp] theorem report_master (r : ResultCode) (s : State) : (report r s).master = { s.master with result := some r } := rfl
@[simp] theorem report_slaves (r : ResultCode) (s : State) : (report r s).slaves = s.slaves := rfl
@[simp] theorem report_bus (r : ResultCode) (s : State) : (report r s).bus = s.bus := rfl
@[simp] theorem report_mem (r : ResultCode) (s : State) : (report r s).mem = s.mem := rfl
@[simp] theorem report_free (r : ResultCode) (s : State) : (report r s).free = s.free := rfl
@[simp] theorem report_inputs (r : ResultCode) (s : State) : (report r s).inputs = s.inputs := rfl
@[simp] theorem report_codecOut (r : ResultCode) (s : State) : (report r s).codecOut = s.codecOut := rfl

/-! ## setFailed -/

@[simp] theorem setFailed_params (a : Addr) (s : State) : (setFailed a s).params = s.params := rfl
@[simp] theorem setFailed_master (a : Addr) (s : State) : (setFailed a s).master = { s.master with failedAddress := a } := rfl
@[simp] theorem setFailed_slaves (a : Addr) (s : State) : (setFailed a s).slaves = s.slaves := rfl
@[simp] theorem setFailed_bus (a : Addr) (s : State) : (setFailed a s).bus = s.bus := rfl
@[simp] theorem setFailed_mem (a : Addr) (s : State) : (setFailed a s).mem = s.mem := rfl
@[simp] theorem setFailed_free (a : Addr) (s : State) : (setFailed a s).free = s.free := rfl
@[simp] theorem setFailed_inputs (a : Addr) (s : State) : (setFailed a s).inputs = s.inputs := rfl
@[simp] theorem setFailed_codecOut (a : Addr) (s : State) : (setFailed a s).codecOut = s.codecOut := rfl

/-! ## lockMutex -/

@[simp] theorem lockMutex_params (s : State) : (lockMutex s).params = s.params := rfl
@[simp] theorem lockMutex_master (s : State) : (lockMutex s).master = if s.master.hasMutex then { s.master with mutexDepth := s.master.mutexDepth + 1 } else s.master := rfl
@[simp] theorem lockMutex_slaves (s : State) : (lockMutex s).slaves = s.slaves := rfl
@[simp] theorem lockMutex_bus (s : State) : (lockMutex s).bus = s.bus := rfl
@[simp] theorem lockMutex_mem (s : State) : (lockMutex s).mem = s.mem := rfl
@[simp] theorem lockMutex_free (s : State) : (lockMutex s).free = s.free := rfl
@[simp] theorem lockMutex_inputs (s : State) : (lockMutex s).inputs = s.inputs := rfl
@[simp] theorem lockMutex_codecOut (s : State) : (lockMutex s).codecOut = s.codecOut := rfl

/-! ## unlockMutex -/

@[simp] theorem unlockMutex_params (s : State) : (unlockMutex s).params = s.params := rfl
@[simp] theorem unlockMutex_master (s : State) : (unlockMutex s).master = if s.master.hasMutex then { s.master with mutexDepth := s.master.mutexDepth - 1 } else s.master := rfl
@[simp] theorem unlockMutex_slaves (s : State) : (unlockMutex s).slaves = s.slaves := rfl
@[simp] theorem unlockMutex_bus (s : State) : (unlockMutex s).bus = s.bus := rfl
@[simp] theorem unlockMutex_mem (s : State) : (unlockMutex s).mem = s.mem := rfl
@[simp] theorem unlockMutex_free (s : State) : (unlockMutex s).free = s.free := rfl
@[simp] theorem unlockMutex_inputs (s : State) : (unlockMutex s).inputs = s.inputs := rfl
@[simp] theorem unlockMutex_codecOut (s : State) : (unlockMutex s).codecOut = s.codecOut := rfl

/-! ## resetMaster -/

@[simp] theorem resetMaster_params (s : State) : (resetMaster s).params = s.params := rfl
@[simp] theorem resetMaster_master (s : State) : (resetMaster s).master = Master.afterReset s.params := rfl
@[simp] theorem resetMaster_slaves (s : State) : (resetMaster s).slaves = s.slaves := rfl
@[simp] theorem resetMaster_bus (s : State) : (resetMaster s).bus = s.bus := rfl
@[simp] theorem resetMaster_mem (s : State) : (resetMaster s).mem = s.mem := rfl
@[simp] theorem resetMaster_free (s : State) : (resetMaster s).free = s.free := rfl
@[simp] theorem resetMaster_inputs (s : State) : (resetMaster s).inputs = s.inputs := rfl
@[simp] theorem resetMaster_codecOut (s : State) : (resetMaster s).codecOut = s.codecOut := rfl

/-! ## resetSlaveAt -/

@[simp] theorem resetSlaveAt_params (k : Nat) (s : State) : (resetSlaveAt k s).params = s.params := rfl
@[simp] theorem resetSlaveAt_master (k : Nat) (s : State) : (resetSlaveAt k s).master = s.master := rfl
@[simp] theorem resetSlaveAt_slaves (k : Nat) (s : State) : (resetSlaveAt k s).slaves = s.slaves.modify k Slave.restart := rfl
@[simp] theorem resetSlaveAt_bus (k : Nat) (s : State) : (resetSlaveAt k s).bus = s.bus := rfl
@[simp] theorem resetSlaveAt_mem (k : Nat) (s : State) : (resetSlaveAt k s).mem = s.mem := rfl
@[simp] theorem resetSlaveAt_free (k : Nat) (s : State) : (resetSlaveAt k s).free = s.free := rfl
@[simp] theorem resetSlaveAt_inputs (k : Nat) (s : State) : (resetSlaveAt k s).inputs = s.inputs := rfl
@[simp] theorem resetSlaveAt_codecOut (k : Nat) (s : State) : (resetSlaveAt k s).codecOut = s.codecOut := rfl

/-! ## placeRequest -/

@[simp] theorem placeRequest_params (r : Request) (s : State) : (placeRequest r s).params = s.params := rfl
@[simp] theorem placeRequest_master (r : Request) (s : State) : (placeRequest r s).master = { s.master with autoPasses := none } := rfl
@[simp] theorem placeRequest_slaves (r : Request) (s : State) : (placeRequest r s).slaves = s.slaves := rfl
@[simp] theorem placeRequest_bus (r : Request) (s : State) : (placeRequest r s).bus = s.bus := rfl
@[simp] theorem placeRequest_mem (r : Request) (s : State) : (placeRequest r s).mem = s.mem := rfl
@[simp] theorem placeRequest_free (r : Request) (s : State) : (placeRequest r s).free = s.free := rfl
@[simp] theorem placeRequest_inputs (r : Request) (s : State) : (placeRequest r s).inputs = .request r :: s.inputs := rfl
@[simp] theorem placeRequest_codecOut (r : Request) (s : State) : (placeRequest r s).codecOut = s.codecOut := rfl

/-! ## keepExchange -/

@[simp] theorem keepExchange_params (f : List Byte) (e : Nat) (s : State) : (keepExchange f e s).params = s.params := rfl
@[simp] theorem keepExchange_master (f : List Byte) (e : Nat) (s : State) : (keepExchange f e s).master = { s.master with txbuf := f, rxbuf := s.bus.stream.take e, n := (s.bus.stream.take e).length } := rfl
@[simp] theorem keepExchange_slaves (f : List Byte) (e : Nat) (s : State) : (keepExchange f e s).slaves = s.slaves := rfl
@[simp] theorem keepExchange_bus (f : List Byte) (e : Nat) (s : State) : (keepExchange f e s).bus = s.bus := rfl
@[simp] theorem keepExchange_mem (f : List Byte) (e : Nat) (s : State) : (keepExchange f e s).mem = s.mem := rfl
@[simp] theorem keepExchange_free (f : List Byte) (e : Nat) (s : State) : (keepExchange f e s).free = s.free := rfl
@[simp] theorem keepExchange_inputs (f : List Byte) (e : Nat) (s : State) : (keepExchange f e s).inputs = s.inputs := rfl
@[simp] theorem keepExchange_codecOut (f : List Byte) (e : Nat) (s : State) : (keepExchange f e s).codecOut = s.codecOut := rfl

/-! ## react -/

@[simp] theorem react_params (h : Nat → Slave → Free → Reaction) (s : State) : (s.react h).params = s.params := rfl
@[simp] theorem react_master (h : Nat → Slave → Free → Reaction) (s : State) : (s.react h).master = s.master := rfl
@[simp] theorem react_mem (h : Nat → Slave → Free → Reaction) (s : State) : (s.react h).mem = s.mem := rfl
@[simp] theorem react_inputs (h : Nat → Slave → Free → Reaction) (s : State) : (s.react h).inputs = s.inputs := rfl
@[simp] theorem react_codecOut (h : Nat → Slave → Free → Reaction) (s : State) : (s.react h).codecOut = s.codecOut := rfl
@[simp] theorem react_slaves (h : Nat → Slave → Free → Reaction) (s : State) : (s.react h).slaves = (reactAll h 0 s.slaves s.free).1 := rfl
@[simp] theorem react_free (h : Nat → Slave → Free → Reaction) (s : State) : (s.react h).free = (reactAll h 0 s.slaves s.free).2.1 := rfl
@[simp] theorem react_inFlight (h : Nat → Slave → Free → Reaction) (s : State) : (s.react h).bus.inFlight = s.bus.inFlight ++ (reactAll h 0 s.slaves s.free).2.2 := rfl
@[simp] theorem react_stream (h : Nat → Slave → Free → Reaction) (s : State) : (s.react h).bus.stream = s.bus.stream := rfl
@[simp] theorem react_noise (h : Nat → Slave → Free → Reaction) (s : State) : (s.react h).bus.noise = s.bus.noise := rfl
@[simp] theorem react_breakOn (h : Nat → Slave → Free → Reaction) (s : State) : (s.react h).bus.breakOn = s.bus.breakOn := rfl

/-! ## The master's tables -/

@[simp] theorem setRes_initialized (a : Addr) (r : ScanResult) (m : Master) : (m.setRes a r).initialized = m.initialized := rfl
@[simp] theorem setRes_transport (a : Addr) (r : ScanResult) (m : Master) : (m.setRes a r).transport = m.transport := rfl
@[simp] theorem setRes_mutexDepth (a : Addr) (r : ScanResult) (m : Master) : (m.setRes a r).mutexDepth = m.mutexDepth := rfl
@[simp] theorem setRes_timeoutUs (a : Addr) (r : ScanResult) (m : Master) : (m.setRes a r).timeoutUs = m.timeoutUs := rfl
@[simp] theorem setRes_dir (a : Addr) (r : ScanResult) (m : Master) : (m.setRes a r).dir = m.dir := rfl
@[simp] theorem setRes_mirror (a : Addr) (r : ScanResult) (m : Master) : (m.setRes a r).mirror = m.mirror := rfl
@[simp] theorem setRes_res (a : Addr) (r : ScanResult) (m : Master) : (m.setRes a r).res = m.res.set a.toNat r a.isLt := rfl
@[simp] theorem setRes_rtype (a : Addr) (r : ScanResult) (m : Master) : (m.setRes a r).rtype = m.rtype := rfl
@[simp] theorem setRes_renumbered (a : Addr) (r : ScanResult) (m : Master) : (m.setRes a r).renumbered = m.renumbered := rfl
@[simp] theorem setRes_swapped (a : Addr) (r : ScanResult) (m : Master) : (m.setRes a r).swapped = m.swapped := rfl
@[simp] theorem setRes_txbuf (a : Addr) (r : ScanResult) (m : Master) : (m.setRes a r).txbuf = m.txbuf := rfl
@[simp] theorem setRes_rxbuf (a : Addr) (r : ScanResult) (m : Master) : (m.setRes a r).rxbuf = m.rxbuf := rfl
@[simp] theorem setRes_n (a : Addr) (r : ScanResult) (m : Master) : (m.setRes a r).n = m.n := rfl
@[simp] theorem setRes_result (a : Addr) (r : ScanResult) (m : Master) : (m.setRes a r).result = m.result := rfl
@[simp] theorem setRes_failedAddress (a : Addr) (r : ScanResult) (m : Master) : (m.setRes a r).failedAddress = m.failedAddress := rfl
@[simp] theorem setRes_resultPerAddress (a : Addr) (r : ScanResult) (m : Master) : (m.setRes a r).resultPerAddress = m.resultPerAddress := rfl
@[simp] theorem setRes_autoPasses (a : Addr) (r : ScanResult) (m : Master) : (m.setRes a r).autoPasses = m.autoPasses := rfl
@[simp] theorem setType_initialized (a : Addr) (t : Word16) (m : Master) : (m.setType a t).initialized = m.initialized := rfl
@[simp] theorem setType_transport (a : Addr) (t : Word16) (m : Master) : (m.setType a t).transport = m.transport := rfl
@[simp] theorem setType_mutexDepth (a : Addr) (t : Word16) (m : Master) : (m.setType a t).mutexDepth = m.mutexDepth := rfl
@[simp] theorem setType_timeoutUs (a : Addr) (t : Word16) (m : Master) : (m.setType a t).timeoutUs = m.timeoutUs := rfl
@[simp] theorem setType_dir (a : Addr) (t : Word16) (m : Master) : (m.setType a t).dir = m.dir := rfl
@[simp] theorem setType_mirror (a : Addr) (t : Word16) (m : Master) : (m.setType a t).mirror = m.mirror := rfl
@[simp] theorem setType_res (a : Addr) (t : Word16) (m : Master) : (m.setType a t).res = m.res := rfl
@[simp] theorem setType_rtype (a : Addr) (t : Word16) (m : Master) : (m.setType a t).rtype = m.rtype.set a.toNat t a.isLt := rfl
@[simp] theorem setType_renumbered (a : Addr) (t : Word16) (m : Master) : (m.setType a t).renumbered = m.renumbered := rfl
@[simp] theorem setType_swapped (a : Addr) (t : Word16) (m : Master) : (m.setType a t).swapped = m.swapped := rfl
@[simp] theorem setType_txbuf (a : Addr) (t : Word16) (m : Master) : (m.setType a t).txbuf = m.txbuf := rfl
@[simp] theorem setType_rxbuf (a : Addr) (t : Word16) (m : Master) : (m.setType a t).rxbuf = m.rxbuf := rfl
@[simp] theorem setType_n (a : Addr) (t : Word16) (m : Master) : (m.setType a t).n = m.n := rfl
@[simp] theorem setType_result (a : Addr) (t : Word16) (m : Master) : (m.setType a t).result = m.result := rfl
@[simp] theorem setType_failedAddress (a : Addr) (t : Word16) (m : Master) : (m.setType a t).failedAddress = m.failedAddress := rfl
@[simp] theorem setType_resultPerAddress (a : Addr) (t : Word16) (m : Master) : (m.setType a t).resultPerAddress = m.resultPerAddress := rfl
@[simp] theorem setType_autoPasses (a : Addr) (t : Word16) (m : Master) : (m.setType a t).autoPasses = m.autoPasses := rfl
@[simp] theorem setDecl_initialized (a : Addr) (e : DirEntry) (m : Master) : (m.setDecl a e).initialized = m.initialized := rfl
@[simp] theorem setDecl_transport (a : Addr) (e : DirEntry) (m : Master) : (m.setDecl a e).transport = m.transport := rfl
@[simp] theorem setDecl_mutexDepth (a : Addr) (e : DirEntry) (m : Master) : (m.setDecl a e).mutexDepth = m.mutexDepth := rfl
@[simp] theorem setDecl_timeoutUs (a : Addr) (e : DirEntry) (m : Master) : (m.setDecl a e).timeoutUs = m.timeoutUs := rfl
@[simp] theorem setDecl_dir (a : Addr) (e : DirEntry) (m : Master) : (m.setDecl a e).dir = m.dir.set a.toNat e a.isLt := rfl
@[simp] theorem setDecl_mirror (a : Addr) (e : DirEntry) (m : Master) : (m.setDecl a e).mirror = m.mirror := rfl
@[simp] theorem setDecl_res (a : Addr) (e : DirEntry) (m : Master) : (m.setDecl a e).res = m.res := rfl
@[simp] theorem setDecl_rtype (a : Addr) (e : DirEntry) (m : Master) : (m.setDecl a e).rtype = m.rtype := rfl
@[simp] theorem setDecl_renumbered (a : Addr) (e : DirEntry) (m : Master) : (m.setDecl a e).renumbered = m.renumbered := rfl
@[simp] theorem setDecl_swapped (a : Addr) (e : DirEntry) (m : Master) : (m.setDecl a e).swapped = m.swapped := rfl
@[simp] theorem setDecl_txbuf (a : Addr) (e : DirEntry) (m : Master) : (m.setDecl a e).txbuf = m.txbuf := rfl
@[simp] theorem setDecl_rxbuf (a : Addr) (e : DirEntry) (m : Master) : (m.setDecl a e).rxbuf = m.rxbuf := rfl
@[simp] theorem setDecl_n (a : Addr) (e : DirEntry) (m : Master) : (m.setDecl a e).n = m.n := rfl
@[simp] theorem setDecl_result (a : Addr) (e : DirEntry) (m : Master) : (m.setDecl a e).result = m.result := rfl
@[simp] theorem setDecl_failedAddress (a : Addr) (e : DirEntry) (m : Master) : (m.setDecl a e).failedAddress = m.failedAddress := rfl
@[simp] theorem setDecl_resultPerAddress (a : Addr) (e : DirEntry) (m : Master) : (m.setDecl a e).resultPerAddress = m.resultPerAddress := rfl
@[simp] theorem setDecl_autoPasses (a : Addr) (e : DirEntry) (m : Master) : (m.setDecl a e).autoPasses = m.autoPasses := rfl
@[simp] theorem clearDir_initialized (m : Master) : (m.clearDir).initialized = m.initialized := rfl
@[simp] theorem clearDir_transport (m : Master) : (m.clearDir).transport = m.transport := rfl
@[simp] theorem clearDir_mutexDepth (m : Master) : (m.clearDir).mutexDepth = m.mutexDepth := rfl
@[simp] theorem clearDir_timeoutUs (m : Master) : (m.clearDir).timeoutUs = m.timeoutUs := rfl
@[simp] theorem clearDir_dir (m : Master) : (m.clearDir).dir = m.dir.map fun e => { e with valid := false } := rfl
@[simp] theorem clearDir_mirror (m : Master) : (m.clearDir).mirror = m.mirror := rfl
@[simp] theorem clearDir_res (m : Master) : (m.clearDir).res = m.res := rfl
@[simp] theorem clearDir_rtype (m : Master) : (m.clearDir).rtype = m.rtype := rfl
@[simp] theorem clearDir_renumbered (m : Master) : (m.clearDir).renumbered = m.renumbered := rfl
@[simp] theorem clearDir_swapped (m : Master) : (m.clearDir).swapped = m.swapped := rfl
@[simp] theorem clearDir_txbuf (m : Master) : (m.clearDir).txbuf = m.txbuf := rfl
@[simp] theorem clearDir_rxbuf (m : Master) : (m.clearDir).rxbuf = m.rxbuf := rfl
@[simp] theorem clearDir_n (m : Master) : (m.clearDir).n = m.n := rfl
@[simp] theorem clearDir_result (m : Master) : (m.clearDir).result = m.result := rfl
@[simp] theorem clearDir_failedAddress (m : Master) : (m.clearDir).failedAddress = m.failedAddress := rfl
@[simp] theorem clearDir_resultPerAddress (m : Master) : (m.clearDir).resultPerAddress = m.resultPerAddress := rfl
@[simp] theorem clearDir_autoPasses (m : Master) : (m.clearDir).autoPasses = m.autoPasses := rfl

/-! ## A slave -/

@[simp] theorem revert_st (sl : Slave) : (sl.revert).st = .waitBreak := rfl
@[simp] theorem revert_ownAddr (sl : Slave) : (sl.revert).ownAddr = sl.ownAddr := rfl
@[simp] theorem revert_eepromAddr (sl : Slave) : (sl.revert).eepromAddr = sl.eepromAddr := rfl
@[simp] theorem revert_crc (sl : Slave) : (sl.revert).crc = sl.crc := rfl
@[simp] theorem revert_hdr (sl : Slave) : (sl.revert).hdr = sl.hdr := rfl
@[simp] theorem revert_msgClass (sl : Slave) : (sl.revert).msgClass = sl.msgClass := rfl
@[simp] theorem revert_idx (sl : Slave) : (sl.revert).idx = sl.idx := rfl
@[simp] theorem revert_len (sl : Slave) : (sl.revert).len = sl.len := rfl
@[simp] theorem revert_ctrlReq (sl : Slave) : (sl.revert).ctrlReq = sl.ctrlReq := rfl
@[simp] theorem revert_ctrlResp (sl : Slave) : (sl.revert).ctrlResp = sl.ctrlResp := rfl
@[simp] theorem revert_devType (sl : Slave) : (sl.revert).devType = sl.devType := rfl
@[simp] theorem revert_fwVer (sl : Slave) : (sl.revert).fwVer = sl.fwVer := rfl
@[simp] theorem revert_hwRev (sl : Slave) : (sl.revert).hwRev = sl.hwRev := rfl
@[simp] theorem revert_renumTarget (sl : Slave) : (sl.revert).renumTarget = sl.renumTarget := rfl
@[simp] theorem revert_renumTimer (sl : Slave) : (sl.revert).renumTimer = sl.renumTimer := rfl
@[simp] theorem revert_txEn (sl : Slave) : (sl.revert).txEn = sl.txEn := rfl
@[simp] theorem revert_lastTx (sl : Slave) : (sl.revert).lastTx = sl.lastTx := rfl
@[simp] theorem revert_dev (sl : Slave) : (sl.revert).dev = sl.dev := rfl
@[simp] theorem note_st (c : Call) (sl : Slave) : (sl.note c).st = sl.st := rfl
@[simp] theorem note_ownAddr (c : Call) (sl : Slave) : (sl.note c).ownAddr = sl.ownAddr := rfl
@[simp] theorem note_eepromAddr (c : Call) (sl : Slave) : (sl.note c).eepromAddr = sl.eepromAddr := rfl
@[simp] theorem note_crc (c : Call) (sl : Slave) : (sl.note c).crc = sl.crc := rfl
@[simp] theorem note_hdr (c : Call) (sl : Slave) : (sl.note c).hdr = sl.hdr := rfl
@[simp] theorem note_msgClass (c : Call) (sl : Slave) : (sl.note c).msgClass = sl.msgClass := rfl
@[simp] theorem note_idx (c : Call) (sl : Slave) : (sl.note c).idx = sl.idx := rfl
@[simp] theorem note_len (c : Call) (sl : Slave) : (sl.note c).len = sl.len := rfl
@[simp] theorem note_ctrlReq (c : Call) (sl : Slave) : (sl.note c).ctrlReq = sl.ctrlReq := rfl
@[simp] theorem note_ctrlResp (c : Call) (sl : Slave) : (sl.note c).ctrlResp = sl.ctrlResp := rfl
@[simp] theorem note_devType (c : Call) (sl : Slave) : (sl.note c).devType = sl.devType := rfl
@[simp] theorem note_fwVer (c : Call) (sl : Slave) : (sl.note c).fwVer = sl.fwVer := rfl
@[simp] theorem note_hwRev (c : Call) (sl : Slave) : (sl.note c).hwRev = sl.hwRev := rfl
@[simp] theorem note_renumTarget (c : Call) (sl : Slave) : (sl.note c).renumTarget = sl.renumTarget := rfl
@[simp] theorem note_renumTimer (c : Call) (sl : Slave) : (sl.note c).renumTimer = sl.renumTimer := rfl
@[simp] theorem note_txEn (c : Call) (sl : Slave) : (sl.note c).txEn = sl.txEn := rfl
@[simp] theorem note_lastTx (c : Call) (sl : Slave) : (sl.note c).lastTx = sl.lastTx := rfl
@[simp] theorem note_dev (c : Call) (sl : Slave) : (sl.note c).dev = sl.dev.note c := rfl
@[simp] theorem signalTxe_st (on : Bool) (sl : Slave) : (sl.signalTxe on).st = sl.st := rfl
@[simp] theorem signalTxe_ownAddr (on : Bool) (sl : Slave) : (sl.signalTxe on).ownAddr = sl.ownAddr := rfl
@[simp] theorem signalTxe_eepromAddr (on : Bool) (sl : Slave) : (sl.signalTxe on).eepromAddr = sl.eepromAddr := rfl
@[simp] theorem signalTxe_crc (on : Bool) (sl : Slave) : (sl.signalTxe on).crc = sl.crc := rfl
@[simp] theorem signalTxe_hdr (on : Bool) (sl : Slave) : (sl.signalTxe on).hdr = sl.hdr := rfl
@[simp] theorem signalTxe_msgClass (on : Bool) (sl : Slave) : (sl.signalTxe on).msgClass = sl.msgClass := rfl
@[simp] theorem signalTxe_idx (on : Bool) (sl : Slave) : (sl.signalTxe on).idx = sl.idx := rfl
@[simp] theorem signalTxe_len (on : Bool) (sl : Slave) : (sl.signalTxe on).len = sl.len := rfl
@[simp] theorem signalTxe_ctrlReq (on : Bool) (sl : Slave) : (sl.signalTxe on).ctrlReq = sl.ctrlReq := rfl
@[simp] theorem signalTxe_ctrlResp (on : Bool) (sl : Slave) : (sl.signalTxe on).ctrlResp = sl.ctrlResp := rfl
@[simp] theorem signalTxe_devType (on : Bool) (sl : Slave) : (sl.signalTxe on).devType = sl.devType := rfl
@[simp] theorem signalTxe_fwVer (on : Bool) (sl : Slave) : (sl.signalTxe on).fwVer = sl.fwVer := rfl
@[simp] theorem signalTxe_hwRev (on : Bool) (sl : Slave) : (sl.signalTxe on).hwRev = sl.hwRev := rfl
@[simp] theorem signalTxe_renumTarget (on : Bool) (sl : Slave) : (sl.signalTxe on).renumTarget = sl.renumTarget := rfl
@[simp] theorem signalTxe_renumTimer (on : Bool) (sl : Slave) : (sl.signalTxe on).renumTimer = sl.renumTimer := rfl
@[simp] theorem signalTxe_txEn (on : Bool) (sl : Slave) : (sl.signalTxe on).txEn = on := rfl
@[simp] theorem signalTxe_lastTx (on : Bool) (sl : Slave) : (sl.signalTxe on).lastTx = sl.lastTx := rfl
@[simp] theorem signalTxe_dev (on : Bool) (sl : Slave) : (sl.signalTxe on).dev = sl.dev.note (.enableTransmitEmptySignal on) := rfl
@[simp] theorem device_note_catalog (c : Call) (d : Device) : (d.note c).catalog = d.catalog := rfl
@[simp] theorem device_note_pos (c : Call) (d : Device) : (d.note c).pos = d.pos := rfl
@[simp] theorem device_note_calls (c : Call) (d : Device) : (d.note c).calls = c :: d.calls := rfl
@[simp] theorem device_note_kind (c : Call) (d : Device) (cls : MsgClass) : (d.note c).kind cls = d.kind cls := rfl

/-! ## Reactions that transmit nothing -/

@[simp] theorem quiet_slave (sl : Slave) (f : Free) : (Reaction.quiet sl f).slave = sl := rfl
@[simp] theorem quiet_free (sl : Slave) (f : Free) : (Reaction.quiet sl f).free = f := rfl
@[simp] theorem quiet_tx (sl : Slave) (f : Free) : (Reaction.quiet sl f).tx = none := rfl

end Sys2Proof.Machine
end

