-- ==== Sys2Proof/Laws/Memory.lean ====
section
/-! SUPPORT. The payload buffers: reads after writes, and every operation keeps the canonical form. -/

namespace Sys2Proof.Machine

/-- In a canonical memory every address after the head's is above it, so an address not above the head reads unwritten
in the rest. -/
theorem read_unwritten_of_le (rest : Memory) : ∀ (b : Nat) (w : Byte), Memory.wf ((b, w) :: rest) = true →
    ∀ a, a ≤ b → Memory.read rest a = Memory.unwritten := by
  induction rest with
  | nil => intros; rfl
  | cons c rest ih =>
    obtain ⟨c, v⟩ := c
    intro b w h a hab
    simp only [Memory.wf, Bool.and_eq_true, decide_eq_true_eq] at h
    have hne : a ≠ c := by omega
    rw [Memory.read, if_neg hne]
    exact ih c v h.2 a (by omega)

theorem wf_tail {x : Host.Cell} {rest : Memory} (h : Memory.wf (x :: rest) = true) : Memory.wf rest = true := by
  cases rest with
  | nil => rfl
  | cons y rest =>
    obtain ⟨_, _⟩ := x
    obtain ⟨_, _⟩ := y
    simp only [Memory.wf, Bool.and_eq_true] at h
    exact h.2

theorem wf_cons_of_lt {a b : Nat} {v w : Byte} {rest : Memory} (hv : v ≠ Memory.unwritten) (hab : a < b)
    (h : Memory.wf ((b, w) :: rest) = true) : Memory.wf ((a, v) :: (b, w) :: rest) = true := by
  simp [Memory.wf, hv, hab, h]

theorem wf_head_ne {a : Nat} {v : Byte} {rest : Memory} (h : Memory.wf ((a, v) :: rest) = true) :
    v ≠ Memory.unwritten := by
  cases rest with
  | nil => simpa [Memory.wf] using h
  | cons y rest =>
    obtain ⟨_, _⟩ := y
    simp only [Memory.wf, Bool.and_eq_true, decide_eq_true_eq] at h
    exact h.1.1

/-- A canonical memory stays so under a lower head. -/
theorem wf_cons_head {a : Nat} {v : Byte} {m : Memory} (hv : v ≠ Memory.unwritten) (hm : Memory.wf m = true)
    (hlt : ∀ x ∈ m.head?, a < x.1) : Memory.wf ((a, v) :: m) = true := by
  cases m with
  | nil => simp [Memory.wf, hv]
  | cons y rest =>
    obtain ⟨b, w⟩ := y
    exact wf_cons_of_lt hv (hlt (b, w) rfl) hm

theorem head_of_tail {b : Nat} {w : Byte} {rest : Memory} (h : Memory.wf ((b, w) :: rest) = true) :
    ∀ x ∈ rest.head?, b < x.1 := by
  cases rest with
  | nil => simp
  | cons y rest =>
    obtain ⟨c, v⟩ := y
    simp only [Memory.wf, Bool.and_eq_true, decide_eq_true_eq] at h
    simpa using h.1.2

/-- The first address of a memory after a write: the written one or one that was there. -/
theorem head_write_gt {c a : Nat} {v : Byte} (hca : c < a) : ∀ {m : Memory}, Memory.wf m = true →
    (∀ x ∈ m.head?, c < x.1) → ∀ x ∈ (Memory.write a v m).head?, c < x.1
  | [], _, _ => by
    rw [Memory.write]; split <;> simp [hca]
  | (b, w) :: rest, hw, hm => by
    have hcb : c < b := hm (b, w) rfl
    have ht : ∀ x ∈ rest.head?, c < x.1 := fun x hx => Nat.lt_trans hcb (head_of_tail hw x hx)
    rw [Memory.write]
    repeat' split
    all_goals first | exact ht | simp [hcb, hca]

/-- Every write keeps the canonical form. -/
theorem write_wf (a : Nat) (v : Byte) : ∀ (m : Memory), Memory.wf m = true → Memory.wf (Memory.write a v m) = true
  | [], _ => by
    rw [Memory.write]; split <;> simp_all [Memory.wf]
  | (b, w) :: rest, h => by
    rw [Memory.write]
    split
    · split
      · exact h
      · exact wf_cons_of_lt ‹_› ‹_› h
    · split
      · subst_vars
        split
        · exact wf_tail h
        · exact wf_cons_head ‹_› (wf_tail h) (head_of_tail h)
      · exact wf_cons_head (wf_head_ne h) (write_wf a v rest (wf_tail h))
          (head_write_gt (by omega) (wf_tail h) (head_of_tail h))

/-- A read after a write: the written byte there, the old byte elsewhere. -/
theorem read_write (a : Nat) (v : Byte) : ∀ (m : Memory), Memory.wf m = true → ∀ x,
    Memory.read (Memory.write a v m) x = if x = a then v else Memory.read m x
  | [], _, x => by
    rw [Memory.write]; split <;> by_cases hx : x = a <;> simp_all [Memory.read]
  | (b, w) :: rest, h, x => by
    have hle := read_unwritten_of_le rest b w h
    rw [Memory.write]
    split
    · rename_i hab
      split
      · rename_i hv
        by_cases hx : x = a
        · subst hx
          simp [Memory.read, Nat.ne_of_lt hab, hle x (Nat.le_of_lt hab), hv]
        · simp [hx]
      · by_cases hx : x = a <;> simp [Memory.read, hx]
    · split
      · rename_i hab
        subst hab
        split
        · rename_i hv
          by_cases hx : x = a
          · subst hx; simp [hle x (Nat.le_refl _), hv]
          · simp [Memory.read, hx]
        · by_cases hx : x = a <;> simp [Memory.read, hx]
      · by_cases hb : x = b
        · subst hb
          have : x ≠ a := by omega
          simp [Memory.read, this]
        · simp [Memory.read, hb, read_write a v rest (wf_tail h) x]

/-- Storing a byte sequence keeps the canonical form. -/
theorem store_wf : ∀ (vs : List Byte) (a : Nat) (m : Memory), Memory.wf m = true →
    Memory.wf (Memory.store a vs m) = true
  | [], _, _, h => h
  | v :: vs, a, m, h => store_wf vs (a + 1) _ (write_wf a v m h)

/-- A read after a store: the stored byte inside the stored bytes, the old byte elsewhere. -/
theorem read_store : ∀ (vs : List Byte) (a : Nat) (m : Memory), Memory.wf m = true → ∀ x,
    Memory.read (Memory.store a vs m) x =
      if a ≤ x ∧ x < a + vs.length then vs.getD (x - a) 0 else Memory.read m x
  | [], a, m, _, x => by
    have : ¬(a ≤ x ∧ x < a + 0) := by omega
    simp [Memory.store]
  | v :: vs, a, m, h, x => by
    rw [Memory.store, read_store vs (a + 1) _ (write_wf a v m h) x, read_write a v m h x]
    by_cases hx : x = a
    · subst hx; simp
    · by_cases hin : a + 1 ≤ x ∧ x < a + 1 + vs.length
      · have h2 : a ≤ x ∧ x < a + (v :: vs).length := by simp; omega
        have h3 : x - a = (x - (a + 1)) + 1 := by omega
        rw [if_pos hin, if_pos h2, h3]; rfl
      · have h2 : ¬(a ≤ x ∧ x < a + (v :: vs).length) := by simp; omega
        rw [if_neg hin, if_neg h2, if_neg hx]

/-- What is loaded is what is read, byte by byte. -/
theorem load_length : ∀ (n a : Nat) (m : Memory), (Memory.load a n m).length = n
  | 0, _, _ => rfl
  | n + 1, a, m => by simp [Memory.load, load_length n (a + 1) m]

/-- Free bytes drawn together are as many as asked for. -/
@[simp] theorem drawList_length : ∀ (n : Nat) (f : Free), (Free.drawList n f).1.length = n
  | 0, _ => rfl
  | n + 1, f => by simp [Free.drawList, drawList_length n]

end Sys2Proof.Machine
end

