-- ==== Sys2Proof/Laws/Bus.lean ====
section
/-! SUPPORT. What the bus operations can do, said once: they touch only the slaves, the bus and the free values, and every
slave goes on by events of its own (`BusMove`). -/

namespace Sys2Proof.Machine

/-- One event takes a slave from one state to another. -/
def EventStep (p : Params) (a b : Slave) : Prop := ∃ e f, b = (onEvent p e a f).slave

/-- Some events, none or more, take a slave from one state to another. -/
def Evolves (p : Params) : Slave → Slave → Prop := Relation.ReflTransGen (EventStep p)

/-- What every event keeps, evolving keeps. -/
theorem Evolves.keeps {p : Params} {P : Slave → Prop} (h : ∀ e sl f, P sl → P (onEvent p e sl f).slave)
    {a b : Slave} (hab : Evolves p a b) (ha : P a) : P b := by
  induction hab with
  | refl => exact ha
  | tail _ hs ih => obtain ⟨e, f, rfl⟩ := hs; exact h e _ f ih

/-- A field no event changes, evolving does not change. -/
theorem Evolves.field {p : Params} {α : Type} {g : Slave → α} (h : ∀ e sl f, g (onEvent p e sl f).slave = g sl)
    {a b : Slave} (hab : Evolves p a b) : g b = g a :=
  hab.keeps (P := fun x => g x = g a) (fun e sl f hs => (h e sl f).trans hs) rfl

/-- What a move of the bus can do. -/
structure BusMove (s t : State) : Prop where
  params : t.params = s.params
  master : t.master = s.master
  mem : t.mem = s.mem
  inputs : t.inputs = s.inputs
  codecOut : t.codecOut = s.codecOut
  slaves : List.Forall₂ (Evolves s.params) s.slaves t.slaves
  inFlight : (∀ x ∈ s.bus.inFlight, x.1 < s.slaves.length) → ∀ x ∈ t.bus.inFlight, x.1 < t.slaves.length
  breakOn : s.bus.breakOn = false → t.bus.breakOn = false

theorem evolves_all_refl (p : Params) (l : List Slave) : List.Forall₂ (Evolves p) l l := by
  induction l with
  | nil => exact .nil
  | cons a l ih => exact .cons .refl ih

theorem evolves_all_trans (p : Params) : ∀ {a b c : List Slave}, List.Forall₂ (Evolves p) a b →
    List.Forall₂ (Evolves p) b c → List.Forall₂ (Evolves p) a c
  | _, _, _, .nil, .nil => .nil
  | _, _, _, .cons h t, .cons h' t' => .cons (Relation.ReflTransGen.trans h h') (evolves_all_trans p t t')

theorem BusMove.refl (s : State) : BusMove s s :=
  ⟨rfl, rfl, rfl, rfl, rfl, evolves_all_refl _ _, id, id⟩

theorem BusMove.trans {s t u : State} (h : BusMove s t) (k : BusMove t u) : BusMove s u where
  params := k.params.trans h.params
  master := k.master.trans h.master
  mem := k.mem.trans h.mem
  inputs := k.inputs.trans h.inputs
  codecOut := k.codecOut.trans h.codecOut
  slaves := evolves_all_trans _ h.slaves (h.params ▸ k.slaves)
  inFlight := k.inFlight ∘ h.inFlight
  breakOn := k.breakOn ∘ h.breakOn

/-- No slave comes or goes. -/
theorem BusMove.length {s t : State} (h : BusMove s t) : t.slaves.length = s.slaves.length :=
  h.slaves.length_eq.symm

/-- What every event keeps of a slave, a move of the bus keeps of all slaves. -/
theorem forall_of_evolves {p : Params} {P : Slave → Prop} (hP : ∀ e sl f, P sl → P (onEvent p e sl f).slave) :
    ∀ {a b : List Slave}, List.Forall₂ (Evolves p) a b → (∀ sl ∈ a, P sl) → ∀ sl ∈ b, P sl
  | _, _, .nil, _ => by simp
  | _, _, .cons h t, ha => by
    simp only [List.mem_cons, forall_eq_or_imp] at ha ⊢
    exact ⟨h.keeps hP ha.1, forall_of_evolves hP t ha.2⟩

/-! ## reactAll -/

theorem reactAll_evolves (p : Params) (h : Nat → Slave → Free → Reaction)
    (hh : ∀ i sl f, Evolves p sl (h i sl f).slave) :
    ∀ (l : List Slave) (i : Nat) (f : Free), List.Forall₂ (Evolves p) l (reactAll h i l f).1
  | [], _, _ => .nil
  | sl :: l, i, f => .cons (hh i sl f) (reactAll_evolves p h hh l (i + 1) _)

theorem reactAll_tx_lt (h : Nat → Slave → Free → Reaction) :
    ∀ (l : List Slave) (i : Nat) (f : Free), ∀ x ∈ (reactAll h i l f).2.2, x.1 < i + l.length
  | [], _, _, _, hx => by simp [reactAll] at hx
  | sl :: l, i, f, x, hx => by
    simp only [reactAll, List.mem_append, List.mem_map] at hx
    rcases hx with ⟨b, _, rfl⟩ | hx
    · simp
    · have := reactAll_tx_lt h l (i + 1) _ x hx
      simp only [List.length_cons]; omega

@[simp] theorem reactAll_length (h : Nat → Slave → Free → Reaction) :
    ∀ (l : List Slave) (i : Nat) (f : Free), (reactAll h i l f).1.length = l.length
  | [], _, _ => rfl
  | sl :: l, i, f => by simp [reactAll, reactAll_length h l]

/-- A handler that leaves every slave of a list alone and transmits and draws nothing does nothing. -/
theorem reactAll_quiet (h : Nat → Slave → Free → Reaction) :
    ∀ (l : List Slave) (i : Nat) (f : Free), (∀ j, ∀ sl ∈ l, ∀ g, h j sl g = .quiet sl g) →
      reactAll h i l f = (l, f, [])
  | [], _, _, _ => rfl
  | sl :: l, i, f, hq => by
    have h1 := hq i sl (by simp) f
    have h2 := reactAll_quiet h l (i + 1) f fun j s hs g => hq j s (by simp [hs]) g
    simp [reactAll, h1, h2]

/-- Where the handler is an event or nothing, a reaction is a move of the bus. -/
theorem react_move (s : State) (h : Nat → Slave → Free → Reaction)
    (hh : ∀ i sl f, Evolves s.params sl (h i sl f).slave) : BusMove s (s.react h) where
  params := rfl
  master := rfl
  mem := rfl
  inputs := rfl
  codecOut := rfl
  slaves := reactAll_evolves _ h hh _ _ _
  inFlight := by
    intro hs x hx
    simp only [react_inFlight, List.mem_append] at hx
    rw [react_slaves, reactAll_length]
    rcases hx with hx | hx
    · exact hs x hx
    · simpa using reactAll_tx_lt h _ 0 _ x hx
  breakOn := id

theorem evolves_event (p : Params) (e : Event) (sl : Slave) (f : Free) : Evolves p sl (onEvent p e sl f).slave :=
  .single ⟨e, f, rfl⟩

/-! ## The bus operations -/

theorem txeIfFree_evolves (s : State) (i : Nat) (sl : Slave) (f : Free) :
    Evolves s.params sl (txeIfFree s i sl f).slave := by
  unfold txeIfFree
  split
  · exact evolves_event s.params .txe sl f
  · exact .refl

theorem eventTo_evolves (s : State) (e : Event) (i : Nat) (sl : Slave) (f : Free) :
    Evolves s.params sl (eventTo s e i sl f).slave := by
  cases e
  · exact evolves_event s.params .brk sl f
  · exact evolves_event s.params (.rx _) sl f
  · exact txeIfFree_evolves s i sl f
  · exact evolves_event s.params .tick sl f

theorem serveTxe_move (s : State) : BusMove s (serveTxe s) :=
  react_move s _ fun i sl f => txeIfFree_evolves s i sl f

theorem tickAll_move (s : State) : BusMove s (tickAll s) :=
  react_move s _ fun _ sl f => evolves_event s.params .tick sl f

theorem rxAll_move (b : Byte) (s : State) : BusMove s (rxAll b s) :=
  react_move s _ fun _ sl f => evolves_event s.params (.rx b) sl f

theorem rxGarbled_move (s : State) : BusMove s (rxGarbled s) :=
  react_move s _ fun _ sl f => evolves_event s.params (.rx f.draw.1) sl f.draw.2

theorem eventAt_move (k : Nat) (e : Event) (s : State) : BusMove s (eventAt k e s) :=
  react_move s _ fun i sl f => by
    split
    · exact eventTo_evolves s e i sl f
    · exact .refl

/-- What waits behind another byte stood at a transmitter. -/
theorem laterBytes_subset : ∀ (l : List (Nat × Byte)) (seen : List Nat), ∀ x ∈ laterBytes seen l, x ∈ l
  | [], _, x, hx => by simp [laterBytes] at hx
  | y :: l, seen, x, hx => by
    simp only [laterBytes] at hx
    split at hx
    · rcases List.mem_cons.1 hx with rfl | hx
      · simp
      · exact List.mem_cons_of_mem _ (laterBytes_subset l _ x hx)
    · exact List.mem_cons_of_mem _ (laterBytes_subset l _ x hx)

/-- Where no transmitter holds two bytes, every byte goes out in this slot and none waits. -/
theorem firstBytes_nodup : ∀ (l : List (Nat × Byte)) (seen : List Nat), (seen ++ l.map (·.1)).Nodup →
    firstBytes seen l = l.map (·.2) ∧ laterBytes seen l = []
  | [], _, _ => ⟨rfl, rfl⟩
  | x :: l, seen, h => by
    have hx : ¬(x.1 ∈ seen) := fun hm => (List.nodup_append.1 h).2.2 x.1 hm x.1 (by simp) rfl
    have hp : (seen ++ x.1 :: l.map (·.1)).Perm (x.1 :: seen ++ l.map (·.1)) := List.perm_middle
    have hl := firstBytes_nodup l (x.1 :: seen) (hp.nodup_iff.1 (by simpa using h))
    simp [firstBytes, laterBytes, hx, hl]

/-- The bytes of transmitters that each hold at most one. -/
theorem pending_nodup {b : Bus} (h : (b.inFlight.map (·.1)).Nodup) : b.pending = b.inFlight.map (·.2) :=
  (firstBytes_nodup b.inFlight [] (by simpa using h)).1

theorem queued_nodup {b : Bus} (h : (b.inFlight.map (·.1)).Nodup) : b.queued = [] :=
  (firstBytes_nodup b.inFlight [] (by simpa using h)).2

theorem hear_move (bs : List Byte) (s : State) : BusMove s (s.hear bs) :=
  ⟨rfl, rfl, rfl, rfl, rfl, evolves_all_refl _ _, id, id⟩

theorem hearFree_move (s : State) : BusMove s (hearFree s) :=
  ⟨rfl, rfl, rfl, rfl, rfl, evolves_all_refl _ _, id, id⟩

theorem takeNoise_move (s : State) : BusMove s (takeNoise s).2 := by
  unfold takeNoise
  split
  · exact .refl s
  · exact ⟨rfl, rfl, rfl, rfl, rfl, evolves_all_refl _ _, id, id⟩

theorem clearLine_move (s : State) : BusMove s { s with bus := { s.bus with inFlight := s.bus.queued } } :=
  ⟨rfl, rfl, rfl, rfl, rfl, evolves_all_refl _ _, fun h x hx => h x (laterBytes_subset _ _ x hx), id⟩

theorem deliver_move (b : Byte) (s : State) : BusMove s (deliver b s) := by
  have h := takeNoise_move s
  simp only [deliver]
  split
  · exact h.trans ((hear_move _ _).trans (rxAll_move _ _))
  · exact h.trans ((hear_move _ _).trans (rxAll_move _ _))
  · exact h.trans ((hear_move _ _).trans (rxAll_move _ _))
  · exact h.trans (rxAll_move _ _)
  · exact h.trans ((hearFree_move _).trans (rxGarbled_move _))

theorem carry_move {out : List Byte} {s t : State} (h : carry out s = some t) : BusMove s t := by
  cases out with
  | nil => simp [carry] at h
  | cons b bs =>
    simp only [carry, Option.some.injEq] at h
    exact h ▸ (clearLine_move s).trans (deliver_move _ _)

theorem slot_move (mb : Option Byte) (s : State) : BusMove s (slot mb s) := by
  unfold slot
  split
  · rename_i t h
    exact (serveTxe_move s).trans (carry_move h)
  · exact (serveTxe_move s).trans (tickAll_move _)

theorem flush_move (s : State) : BusMove s (flush s) := by
  unfold flush
  cases h : carry s.bus.pending s with
  | none => exact .refl s
  | some t => exact carry_move h

theorem onBreak_all (p : Params) : ∀ l : List Slave, List.Forall₂ (Evolves p) l (l.map Slave.onBreak)
  | [] => .nil
  | sl :: l => .cons (evolves_event p .brk sl ⟨[], 0⟩) (onBreak_all p l)

/-- After the break is taken none is being signalled, whatever was before. -/
@[simp] theorem takeBreak_breakOn (s : State) : (takeBreak s).bus.breakOn = false := rfl

@[simp] theorem takeBreak_slaves (s : State) : (takeBreak s).slaves = s.slaves.map Slave.onBreak := rfl

@[simp] theorem takeBreak_inFlight (s : State) : (takeBreak s).bus.inFlight = s.bus.inFlight := rfl

@[simp] theorem takeBreak_noise (s : State) : (takeBreak s).bus.noise = s.bus.noise := rfl

@[simp] theorem takeBreak_stream (s : State) :
    (takeBreak s).bus.stream = (Free.drawList s.params.breakEchoBytes.val s.free).1 := rfl

@[simp] theorem takeBreak_free (s : State) :
    (takeBreak s).free = (Free.drawList s.params.breakEchoBytes.val s.free).2 := rfl

theorem takeBreak_move (s : State) : BusMove s (takeBreak s) where
  params := rfl
  master := rfl
  mem := rfl
  inputs := rfl
  codecOut := rfl
  slaves := onBreak_all _ _
  inFlight := by simp
  breakOn := fun _ => rfl

theorem sendBreak_move (s : State) : BusMove s (sendBreak s) := by
  have h := flush_move s
  exact
    { params := h.params
      master := h.master
      mem := h.mem
      inputs := h.inputs
      codecOut := h.codecOut
      slaves := evolves_all_trans _ h.slaves (onBreak_all _ _)
      inFlight := fun hs x hx => by
        have := h.inFlight hs x hx
        simpa [sendBreak, raiseBreak] using this
      breakOn := fun _ => rfl }

theorem busTurn_move (s : State) : BusMove s (busTurn s) := by
  unfold busTurn
  split
  · exact takeBreak_move s
  · exact slot_move _ _

theorem sendBytes_move : ∀ (bs : List Byte) (s : State), BusMove s (sendBytes bs s)
  | [], s => .refl s
  | b :: bs, s => (slot_move (some b) s).trans (sendBytes_move bs _)

theorem await_move (limit : Option Nat) : ∀ (fuel time : Nat) (s : State), BusMove s (await limit fuel time s)
  | 0, _, s => .refl s
  | fuel + 1, time, s => by
    unfold await
    split
    · exact .refl s
    · split
      · exact .refl s
      · split
        · exact .refl s
        · exact (busTurn_move s).trans (await_move limit fuel _ _)

theorem transmit_move (f : List Byte) (s : State) : BusMove s (transmit f s) :=
  (sendBreak_move s).trans (sendBytes_move f _)

/-- A frame on the wire and its reply are a move of the bus. -/
theorem frameOnWire_move (f : List Byte) (s : State) : BusMove s (frameOnWire f s) :=
  (transmit_move f s).trans (await_move _ _ _ _)

/-- An exchange before its bytes are kept is a move of the bus. -/
theorem awaitTransmit_move (f : List Byte) (e : Nat) (s : State) :
    BusMove s (awaitReply (some e) (transmit f s)) :=
  (transmit_move f s).trans (await_move _ _ _ _)

/-! ## Where nothing moves -/

/-- A settled bus does not change in an await. -/
theorem await_settled (limit : Option Nat) (fuel time : Nat) (s : State) (h : settled s = true) :
    await limit fuel time s = s := by
  cases fuel with
  | zero => rfl
  | succ n => simp [await, h]

/-- An await whose count is there does nothing. -/
theorem await_enough (limit : Option Nat) (fuel time : Nat) (s : State) (h : enough limit s = true) :
    await limit fuel time s = s := by
  cases fuel with
  | zero => rfl
  | succ n => simp [await, h]

end Sys2Proof.Machine
end

