-- ==== Sys2Proof/Laws/CleanBus.lean ====
section
/-! SUPPORT. The bus operations on a bus nobody disturbs, in the cases a frame is made of: nobody wants to transmit, one slave
does, or one slave is alone. -/

namespace Sys2Proof.Machine

/-- Where no slave wants to transmit, serving the transmitters does nothing. -/
theorem serveTxe_idle {s : State} (h : ∀ sl ∈ s.slaves, sl.txEn = false) : serveTxe s = s := by
  unfold serveTxe State.react
  rw [reactAll_quiet]
  · simp
  · intro j sl hs g
    simp [txeIfFree, h sl hs]

/-- An undisturbed slot that only the master uses: every node hears its byte. -/
theorem slot_master {s : State} (b : Byte) (ht : ∀ sl ∈ s.slaves, sl.txEn = false) (hf : s.bus.inFlight = [])
    (hn : s.bus.noise = []) : slot (some b) s = rxAll b (s.hear [b]) := by
  have hs : { s with bus := { s.bus with inFlight := [] } } = s := by
    rw [← hf]
  simp only [slot, serveTxe_idle ht, Bus.pending, Bus.queued, hf, Option.toList, firstBytes, laterBytes, List.append_nil,
    carry, hs]
  simp [deliver, takeNoise, hn, wiredAnd]

/-- A break on a line with nothing in flight. -/
theorem sendBreak_clean {s : State} (hf : s.bus.inFlight = []) :
    sendBreak s = { s with
      slaves := s.slaves.map Slave.onBreak
      free := s.freeAfterEcho
      bus := { breakOn := false, inFlight := [], stream := s.echo, noise := s.bus.noise } } := by
  have h : flush s = s := by simp [flush, Bus.pending, firstBytes, hf, carry]
  simp only [sendBreak, raiseBreak, h, takeBreak, State.freeAfterEcho, State.echo, hf]

/-- What a handler does to a slave alone on the bus. -/
theorem react_lone {s : State} {sl : Slave} (h : Nat → Slave → Free → Reaction) (hs : s.slaves = [sl]) :
    s.react h = { s with
      slaves := [(h 0 sl s.free).slave]
      free := (h 0 sl s.free).free
      bus := { s.bus with inFlight := s.bus.inFlight ++ (h 0 sl s.free).tx.toList.map fun b => (0, b) } } := by
  simp [State.react, hs, reactAll]

/-- After a break no slave transmits. -/
@[simp] theorem onBreak_txEn (sl : Slave) : sl.onBreak.txEn = false := by
  unfold Slave.onBreak
  split
  · rfl
  · simp_all

@[simp] theorem onBreak_st (sl : Slave) : sl.onBreak.st = .rxHeader := by
  unfold Slave.onBreak
  split <;> rfl

@[simp] theorem onBreak_crc (sl : Slave) : sl.onBreak.crc = Config.seed := by
  unfold Slave.onBreak
  split <;> rfl

@[simp] theorem onBreak_idx (sl : Slave) : sl.onBreak.idx = 0 := by
  unfold Slave.onBreak
  split <;> rfl

@[simp] theorem onBreak_ownAddr (sl : Slave) : sl.onBreak.ownAddr = sl.ownAddr := by
  unfold Slave.onBreak
  split <;> rfl

@[simp] theorem onBreak_kind (sl : Slave) (c : MsgClass) : sl.onBreak.dev.kind c = sl.dev.kind c := by
  unfold Slave.onBreak
  split <;> rfl

end Sys2Proof.Machine
end

