-- ==== Sys2Proof/Laws/Crc.lean ====
section
/-! SUPPORT. The CRC run over joined sequences, and that the reference table obeys the laws of the table. -/

namespace Sys2Proof.Machine

/-- A run over two sequences is a run over the second from where the first ended. -/
theorem crc8Over_append (p : Params) : ∀ (xs ys : List Byte) (r : Byte),
    crc8Over p (xs ++ ys) r = crc8Over p ys (crc8Over p xs r)
  | [], _, _ => rfl
  | x :: xs, ys, r => crc8Over_append p xs ys (crc8 p r x)

/-- Where an entry of the reference table stands. -/
def refPlace (y : Byte) : Byte :=
  BitVec.ofNat 8 (((Config.refLow ++ Config.refHigh).findIdx? (· == y)).getD 0)

theorem refPlace_table : ∀ x : Byte, refPlace (crcTable Config.reference x) = x := by decide +kernel

/-- The reference table obeys the zero law and the permutation law. -/
theorem reference_laws : CrcLaws Config.reference :=
  ⟨by decide, fun x y h => by rw [← refPlace_table x, ← refPlace_table y, h]⟩

end Sys2Proof.Machine
end

