-- ==== Sys2Proof/Laws/Master.lean ====
section
/-! SUPPORT. What the master's shared operations can do, said once: the prologue and epilogue (`masterOp`), and the exchanges
every other operation is built from (`ExchangeMove`). -/

namespace Sys2Proof.Machine

/-! ## The prologue and the epilogue -/

/-- Whenever a public operation answers a next state, it was not initialised, or it ran its body between lock and
unlock. -/
theorem masterOp_next {bad : Option Refusal} {body : State → ResultCode × State} {s t : State}
    (h : masterOp bad body s = .next t) :
    (s.master.initialized = false ∧ t = report .notInitialized s) ∨
    (s.Ready ∧ bad = none ∧ t = report (body (lockMutex s)).1 (unlockMutex (body (lockMutex s)).2)) := by
  unfold masterOp at h
  split at h
  · cases h
    exact .inl ⟨by assumption, rfl⟩
  · split at h
    · cases h
    · split at h
      · cases h
      · cases h
        exact .inr ⟨⟨by simp_all, by simp_all⟩, rfl, rfl⟩

/-- A ready master runs the body of an operation nothing speaks against. -/
theorem masterOp_ready {bad : Option Refusal} (body : State → ResultCode × State) {s : State} (h : s.Ready)
    (hb : bad = none) :
    masterOp bad body s = .next (report (body (lockMutex s)).1 (unlockMutex (body (lockMutex s)).2)) := by
  simp [masterOp, h.1, h.2, hb]

/-- Nothing but the depth changes while the mutex is held. -/
theorem lockMutex_eq (s : State) :
    lockMutex s = { s with master := { s.master with mutexDepth := (lockMutex s).master.mutexDepth } } := by
  cases h : s.master.hasMutex <;> simp [lockMutex, State.updMaster, h]

/-! ## Exchanges -/

/-- What one exchange, or several, can do: move the bus and write the exchange buffers. -/
structure ExchangeMove (s t : State) : Prop where
  params : t.params = s.params
  mem : t.mem = s.mem
  inputs : t.inputs = s.inputs
  codecOut : t.codecOut = s.codecOut
  master : t.master = { s.master with txbuf := t.master.txbuf, rxbuf := t.master.rxbuf, n := t.master.n }
  count : s.master.n = s.master.rxbuf.length → t.master.n = t.master.rxbuf.length
  slaves : List.Forall₂ (Evolves s.params) s.slaves t.slaves
  inFlight : (∀ x ∈ s.bus.inFlight, x.1 < s.slaves.length) → ∀ x ∈ t.bus.inFlight, x.1 < t.slaves.length
  breakOn : s.bus.breakOn = false → t.bus.breakOn = false

theorem ExchangeMove.refl (s : State) : ExchangeMove s s :=
  ⟨rfl, rfl, rfl, rfl, rfl, id, evolves_all_refl _ _, id, id⟩

theorem ExchangeMove.trans {s t u : State} (h : ExchangeMove s t) (k : ExchangeMove t u) : ExchangeMove s u where
  params := k.params.trans h.params
  mem := k.mem.trans h.mem
  inputs := k.inputs.trans h.inputs
  codecOut := k.codecOut.trans h.codecOut
  master := by rw [k.master, h.master]
  count := k.count ∘ h.count
  slaves := evolves_all_trans _ h.slaves (h.params ▸ k.slaves)
  inFlight := k.inFlight ∘ h.inFlight
  breakOn := k.breakOn ∘ h.breakOn

/-- An exchange; what it kept is the frame and the bytes read. -/
theorem exchange_move (f : List Byte) (e : Nat) (s : State) : ExchangeMove s (exchange f e s) := by
  have h := awaitTransmit_move f e s
  exact
    { params := h.params
      mem := h.mem
      inputs := h.inputs
      codecOut := h.codecOut
      master := by simp [exchange, h.master]
      count := fun _ => rfl
      slaves := h.slaves
      inFlight := h.inFlight
      breakOn := h.breakOn }

theorem command_move (a : Addr) (request : Vector Byte 5) (s : State) : ExchangeMove s (command a request s).2.2 :=
  exchange_move _ _ s

theorem sendBody_move (a : Addr) (c : MsgClass) (payload : List Byte) (s : State) :
    ExchangeMove s (sendBody a c payload s).2 :=
  exchange_move _ _ s

theorem probeInquire_move (a : Addr) (s : State) : ExchangeMove s (probeInquire a s).2.2 := by
  simp only [probeInquire]
  split
  · exact (command_move a probeRequest s).trans (command_move a inquireRequest _)
  · exact command_move a probeRequest s

theorem renumAttempts_move (old new : Addr) : ∀ (n : Nat) (last : ResultCode) (s : State),
    ExchangeMove s (renumAttempts old new n last s).2
  | 0, _, s => .refl s
  | n + 1, _, s => by
    simp only [renumAttempts]
    split
    · exact command_move old _ s
    · exact (command_move old _ s).trans (renumAttempts_move old new n _ _)

theorem renumBody_move (old new : Addr) (s : State) : ExchangeMove s (renumBody old new s).2 :=
  renumAttempts_move old new _ _ s

/-- The registers an exchange leaves alone, one by one. -/
theorem ExchangeMove.registers {s t : State} (h : ExchangeMove s t) :
    t.master.initialized = s.master.initialized ∧ t.master.transport = s.master.transport ∧
    t.master.mutexDepth = s.master.mutexDepth ∧ t.master.timeoutUs = s.master.timeoutUs ∧
    t.master.dir = s.master.dir ∧ t.master.mirror = s.master.mirror ∧ t.master.res = s.master.res ∧
    t.master.rtype = s.master.rtype ∧ t.master.renumbered = s.master.renumbered ∧
    t.master.swapped = s.master.swapped ∧ t.master.failedAddress = s.master.failedAddress ∧
    t.master.resultPerAddress = s.master.resultPerAddress ∧ t.master.autoPasses = s.master.autoPasses := by
  rw [h.master]
  exact ⟨rfl, rfl, rfl, rfl, rfl, rfl, rfl, rfl, rfl, rfl, rfl, rfl, rfl⟩

/-! ## The scan of AUTO_CONFIG (43 R232) -/

/-- The pair PROBE, INQUIRE gives what its rule says. -/
theorem probeInquire_reply (a : Addr) (s : State) :
    ∃ ty : Option Word16, ScanReply a s (probeInquire a s).1 ty (probeInquire a s).2.2 ∧
      ((probeInquire a s).1 = .ok → ty = some (probeInquire a s).2.1) ∧ ((probeInquire a s).1 ≠ .ok → ty = none) := by
  by_cases hp : (command a probeRequest s).1 = .ok
  · simp only [probeInquire, hp, if_true]
    by_cases hq : (command a inquireRequest (command a probeRequest s).2.2).1 = .ok
    · exact ⟨_, hq ▸ .identified hp hq, fun _ => rfl, fun h => absurd hq h⟩
    · exact ⟨_, .noInquire hp hq, fun h => absurd h hq, fun _ => rfl⟩
  · simp only [probeInquire, if_neg hp]
    exact ⟨_, .noProbe hp, fun h => absurd h hp, fun _ => rfl⟩

/-- Reading a scan result after one is written. -/
theorem resOf_setRes (m : Master) (a b : Addr) (r : ScanResult) :
    (m.setRes a r).resOf b = if b = a then r else m.resOf b := by
  simp only [Master.resOf, Master.setRes, Vector.get_eq_getElem, Vector.getElem_set, BitVec.val_toFin]
  simp only [BitVec.toNat_eq, eq_comm]

/-- Reading a reported type after one is written. -/
theorem typeOf_setType (m : Master) (a b : Addr) (t : Word16) :
    (m.setType a t).typeOf b = if b = a then t else m.typeOf b := by
  simp only [Master.typeOf, Master.setType, Vector.get_eq_getElem, Vector.getElem_set, BitVec.val_toFin]
  simp only [BitVec.toNat_eq, eq_comm]

@[simp] theorem resOf_setType (m : Master) (a b : Addr) (t : Word16) : (m.setType a t).resOf b = m.resOf b := rfl

@[simp] theorem typeOf_setRes (m : Master) (a b : Addr) (r : ScanResult) : (m.setRes a r).typeOf b = m.typeOf b := rfl

/-- What recording a code changes: the result, the type where the code is OK, and nothing else. -/
theorem record_spec (a : Addr) (r : ResultCode) (t : Word16) (m : Master) :
    m.record a r t = { m with res := (m.record a r t).res, rtype := (m.record a r t).rtype } ∧
    (∀ b, (m.record a r t).resOf b = if b = a then scanResultOf r else m.resOf b) ∧
    (∀ b, (m.record a r t).typeOf b = if b = a ∧ r = .ok then t else m.typeOf b) := by
  cases r <;>
    exact ⟨rfl, by simp [Master.record, scanResultOf, resOf_setRes], by simp [Master.record, typeOf_setType]⟩

/-- The scan of one address whose entry is not confirmed. -/
theorem asked_step (a : Addr) (s : State) (h1 : s.master.resOf a ≠ .ok) (h2 : s.master.resOf a ≠ .noResponse) :
    ScanStep a s ((probeInquire a s).2.2.updMaster (Master.record a (probeInquire a s).1 (probeInquire a s).2.1)) := by
  obtain ⟨ty, hr, hok, hno⟩ := probeInquire_reply a s
  obtain ⟨hm, hres, hty⟩ :=
    record_spec a (probeInquire a s).1 (probeInquire a s).2.1 (probeInquire a s).2.2.master
  have hregs := (probeInquire_move a s).registers
  have hres' : ∀ b, (probeInquire a s).2.2.master.resOf b = s.master.resOf b := fun b => by
    simp only [Master.resOf, hregs]
  have hty' : ∀ b, (probeInquire a s).2.2.master.typeOf b = s.master.typeOf b := fun b => by
    simp only [Master.typeOf, hregs]
  refine .asked h1 h2 hr (congrArg (fun m => { (probeInquire a s).2.2 with master := m }) hm) (fun b => ?_) fun b => ?_
  · exact (hres b).trans (by rw [hres'])
  · refine (hty b).trans ?_
    by_cases hk : (probeInquire a s).1 = .ok
    · simp [hk, hok hk, hty']
    · by_cases hb : b = a <;> simp [hk, hno hk, hty', hb]

/-- The scan of one address, said once. -/
theorem scanAddr_step (a : Addr) (s : State) : ScanStep a s (scanAddr s a) := by
  unfold scanAddr
  split
  · exact .confirmed (.inl ‹_›)
  · exact .confirmed (.inr ‹_›)
  · exact asked_step a s (by simp [*]) (by simp [*])
  · exact asked_step a s (by simp [*]) (by simp [*])

end Sys2Proof.Machine
end

