-- ==== Sys2Proof/Laws/PerInstr.lean ====
section
/-! SUPPORT. The family `FixedBits`, instruction by instruction: an encoding carries the bits its row of spec/opcode_table.json
fixes, at the port its row belongs to. -/

namespace Sys2Proof.Laws.FixedBits

/-- On the wire, a header whose top three bits are the class (30_encoding R101), and the first request byte where the row
fixes it (R108). -/
def OnWire (cls : MsgClass) (sub : Option Byte) (r : Request) : Prop :=
  r.port = .wire ∧ ∃ (h c : Byte) (rest : List Byte), r.bytes = h :: c :: rest ∧ headerClass h = cls ∧
    ∀ b, sub = some b → rest.head? = some b

/-- At the host's request port, the 4-bit selector (R115) in the first byte. -/
def AtHost (op : Byte) (r : Request) : Prop := r.port = .host ∧ r.bytes.head? = some op

/-- At the codec port, the model's own selector (log 11): the table fixes no bits. -/
def AtCodec (op : Byte) (r : Request) : Prop := r.port = .codec ∧ r.bytes.head? = some op

/-- The fixed bits of an instruction's row. -/
def rowBits : Instr → Request → Prop
  | .data0 _ _ _ => OnWire 0 none
  | .data1 _ _ _ => OnWire 1 none
  | .data2 _ _ _ => OnWire 2 none
  | .data3 _ _ _ => OnWire 3 none
  | .data4 _ _ _ => OnWire 4 none
  | .data5 _ _ _ => OnWire 5 none
  | .data6 _ _ _ => OnWire 6 none
  | .cmdProbe _ _ _ _ => OnWire 7 (some 0)
  | .cmdRenum _ _ _ _ _ => OnWire 7 (some 1)
  | .cmdInquire _ _ _ _ => OnWire 7 (some 2)
  | .cmdReserved _ _ sub _ _ => OnWire 7 (some sub)
  | .init _ => AtHost 0
  | .sendMessage _ _ _ => AtHost 1
  | .receiveMessage _ _ _ _ => AtHost 2
  | .sendCmdMessage _ _ _ => AtHost 3
  | .defineDevices _ => AtHost 4
  | .defineMirroring _ => AtHost 5
  | .mirrorTick => AtHost 6
  | .renumId _ _ => AtHost 7
  | .checkConfig => AtHost 8
  | .autoConfig => AtHost 9
  | .opReserved10 => AtHost 10
  | .opReserved11 => AtHost 11
  | .opReserved12 => AtHost 12
  | .opReserved13 => AtHost 13
  | .opReserved14 => AtHost 14
  | .opReserved15 => AtHost 15
  | .crc8 _ _ => AtCodec 0
  | .crc8Over _ _ => AtCodec 1
  | .makeHeader _ _ => AtCodec 2
  | .splitHeader _ => AtCodec 3
  | .headerCrc _ => AtCodec 4
  | .buildWriteFrame _ _ _ => AtCodec 5
  | .buildReadRequest _ _ => AtCodec 6
  | .buildCmdFrame _ _ => AtCodec 7
  | .payloadOk _ => AtCodec 8
  | .decodeInquire _ => AtCodec 9

/-- An instruction's encoding carries the bits of its row. -/
def Statement (i : Instr) : Prop := rowBits i (encode i)

/-- The header of a class and an address carries the class. -/
theorem class_of_header : ∀ (c : MsgClass) (a : Addr), headerClass (makeHeader c a) = c := by decide

theorem data0 addr hcrc body : Statement (.data0 addr hcrc body) :=
  ⟨rfl, _, _, _, rfl, class_of_header _ _, nofun⟩
theorem data1 addr hcrc body : Statement (.data1 addr hcrc body) :=
  ⟨rfl, _, _, _, rfl, class_of_header _ _, nofun⟩
theorem data2 addr hcrc body : Statement (.data2 addr hcrc body) :=
  ⟨rfl, _, _, _, rfl, class_of_header _ _, nofun⟩
theorem data3 addr hcrc body : Statement (.data3 addr hcrc body) :=
  ⟨rfl, _, _, _, rfl, class_of_header _ _, nofun⟩
theorem data4 addr hcrc body : Statement (.data4 addr hcrc body) :=
  ⟨rfl, _, _, _, rfl, class_of_header _ _, nofun⟩
theorem data5 addr hcrc body : Statement (.data5 addr hcrc body) :=
  ⟨rfl, _, _, _, rfl, class_of_header _ _, nofun⟩
theorem data6 addr hcrc body : Statement (.data6 addr hcrc body) :=
  ⟨rfl, _, _, _, rfl, class_of_header _ _, nofun⟩
theorem cmdProbe addr hcrc args crc : Statement (.cmdProbe addr hcrc args crc) :=
  ⟨rfl, _, _, _, rfl, class_of_header _ _, fun _ h => h⟩
theorem cmdRenum addr hcrc newAddr args crc : Statement (.cmdRenum addr hcrc newAddr args crc) :=
  ⟨rfl, _, _, _, rfl, class_of_header _ _, fun _ h => h⟩
theorem cmdInquire addr hcrc args crc : Statement (.cmdInquire addr hcrc args crc) :=
  ⟨rfl, _, _, _, rfl, class_of_header _ _, fun _ h => h⟩
theorem cmdReserved addr hcrc sub args crc : Statement (.cmdReserved addr hcrc sub args crc) :=
  ⟨rfl, _, _, _, rfl, class_of_header _ _, fun _ h => h⟩
theorem init mutex : Statement (.init mutex) := ⟨rfl, rfl⟩
theorem sendMessage addr cls payload : Statement (.sendMessage addr cls payload) := ⟨rfl, rfl⟩
theorem receiveMessage addr cls length buf : Statement (.receiveMessage addr cls length buf) := ⟨rfl, rfl⟩
theorem sendCmdMessage addr request out : Statement (.sendCmdMessage addr request out) := ⟨rfl, rfl⟩
theorem defineDevices decls : Statement (.defineDevices decls) := ⟨rfl, rfl⟩
theorem defineMirroring defs : Statement (.defineMirroring defs) := ⟨rfl, rfl⟩
theorem mirrorTick : Statement .mirrorTick := ⟨rfl, rfl⟩
theorem renumId old new : Statement (.renumId old new) := ⟨rfl, rfl⟩
theorem checkConfig : Statement .checkConfig := ⟨rfl, rfl⟩
theorem autoConfig : Statement .autoConfig := ⟨rfl, rfl⟩
theorem opReserved10 : Statement .opReserved10 := ⟨rfl, rfl⟩
theorem opReserved11 : Statement .opReserved11 := ⟨rfl, rfl⟩
theorem opReserved12 : Statement .opReserved12 := ⟨rfl, rfl⟩
theorem opReserved13 : Statement .opReserved13 := ⟨rfl, rfl⟩
theorem opReserved14 : Statement .opReserved14 := ⟨rfl, rfl⟩
theorem opReserved15 : Statement .opReserved15 := ⟨rfl, rfl⟩
theorem crc8 r b : Statement (.crc8 r b) := ⟨rfl, rfl⟩
theorem crc8Over bytes r : Statement (.crc8Over bytes r) := ⟨rfl, rfl⟩
theorem makeHeader cls addr : Statement (.makeHeader cls addr) := ⟨rfl, rfl⟩
theorem splitHeader h : Statement (.splitHeader h) := ⟨rfl, rfl⟩
theorem headerCrc h : Statement (.headerCrc h) := ⟨rfl, rfl⟩
theorem buildWriteFrame addr cls payload : Statement (.buildWriteFrame addr cls payload) := ⟨rfl, rfl⟩
theorem buildReadRequest addr cls : Statement (.buildReadRequest addr cls) := ⟨rfl, rfl⟩
theorem buildCmdFrame addr request : Statement (.buildCmdFrame addr request) := ⟨rfl, rfl⟩
theorem payloadOk window : Statement (.payloadOk window) := ⟨rfl, rfl⟩
theorem decodeInquire resp : Statement (.decodeInquire resp) := ⟨rfl, rfl⟩

end Sys2Proof.Laws.FixedBits
end

