-- ==== Sys2Proof/Tests/Slice0.lean ====
section
/-! SUPPORT. The author's own tests: ill-formed terms refused, words decoded, one step each on small states, and for each
statement with hypotheses a state and operands that meet them. Expected values come from spec/95_test_vectors.md, named in
each docstring; the CRC bytes are those of the reference table. -/

namespace Sys2Proof.Tests

open Sys2Proof Sys2Proof.Machine

/-! ## WellFormed refuses one ill-formed term for each check -/

theorem test_wf_defined_sub_command :
    checkInstr (.cmdReserved 3 0 2 #v[0, 0, 0, 0] 0) = some .definedSubCommand := by decide

theorem test_wf_class_not_data :
    checkInstr (.sendMessage 2 7 []) = some .classNotData ∧ checkInstr (.receiveMessage 2 7 1 0) = some .classNotData := by
  decide

/-- A declaration with no slots. -/
def declAt (a : Addr) (t : Word16) : Decl := ⟨a, t, Vector.replicate 8 ⟨false, .m2s, 0⟩⟩

theorem test_wf_decl_address :
    checkInstr (.defineDevices [declAt 0 1]) = some .declAddress ∧
    checkInstr (.defineDevices [declAt 3 1, declAt 31 1]) = some .declAddress := by decide

theorem test_wf_decl_repeated : checkInstr (.defineDevices [declAt 3 1, declAt 3 2]) = some .declRepeated := by decide

theorem test_wf_mirror_slot : checkInstr (.defineMirroring [⟨2, 7, 0, 1, 1, 0⟩]) = some .mirrorSlot := by decide

theorem test_wf_mirror_period : checkInstr (.defineMirroring [⟨2, 0, 0, 1, 0, 0⟩]) = some .mirrorPeriod := by decide

theorem test_wf_mirror_phase : checkInstr (.defineMirroring [⟨2, 0, 0, 1, 4, 4⟩]) = some .mirrorPhase := by decide

/-! ## Decoding: every constructor, from bytes written out by the rules -/

/-- R101, R104, R105: `class<<5 | addr`; the header CRCs and payload CRC of V-COD-5, V-COD-7 and the table of 3.2. -/
theorem test_decode_data :
    decode ⟨.wire, [0b00000010, 0x5B, 0x01, 0x64, 0x82]⟩ = .ok (.data0 2 0x5B [0x01, 0x64, 0x82]) ∧
    decode ⟨.wire, [0b00100010, 0xBB]⟩ = .ok (.data1 2 0xBB []) ∧
    decode ⟨.wire, [0b01000111, 0x87]⟩ = .ok (.data2 7 0x87 []) ∧
    decode ⟨.wire, [0b01111110, 0x28, 0xC5]⟩ = .ok (.data3 30 0x28 [0xC5]) ∧
    decode ⟨.wire, [0b10000000, 0xDC]⟩ = .ok (.data4 0 0xDC []) ∧
    decode ⟨.wire, [0b10111111, 0x61]⟩ = .ok (.data5 31 0x61 []) ∧
    decode ⟨.wire, [0b11000001, 0x00]⟩ = .ok (.data6 1 0x00 []) := by decide

/-- R106, R108 to R112; V-COD-8 to V-COD-10 and V-CMD-3. -/
theorem test_decode_commands :
    decode ⟨.wire, [0b11100011, 0xF2, 0, 0, 0, 0, 0, 0xB2]⟩ = .ok (.cmdProbe 3 0xF2 #v[0, 0, 0, 0] 0xB2) ∧
    decode ⟨.wire, [0b11100011, 0xF2, 1, 7, 0, 0, 9, 0xB2]⟩ = .ok (.cmdRenum 3 0xF2 7 #v[0, 0, 9] 0xB2) ∧
    decode ⟨.wire, [0b11100011, 0xF2, 2, 0, 0, 0, 0, 0x76]⟩ = .ok (.cmdInquire 3 0xF2 #v[0, 0, 0, 0] 0x76) ∧
    decode ⟨.wire, [0b11100011, 0xF2, 9, 0, 0, 0, 0, 0xC9]⟩ = .ok (.cmdReserved 3 0xF2 9 #v[0, 0, 0, 0] 0xC9) ∧
    decode ⟨.wire, [0b11100011, 0xF2, 0, 0, 0, 0, 0]⟩ = .error .notAFrame ∧
    decode ⟨.wire, [0x02]⟩ = .error .notAFrame := by decide

/-- R115 and R116: the selector, then operand bytes in the order of the operands (log 11). -/
theorem test_decode_host :
    decode ⟨.host, [0, 1]⟩ = .ok (.init true) ∧
    decode ⟨.host, [1, 2, 0, 0x01, 0x64]⟩ = .ok (.sendMessage 2 0 [0x01, 0x64]) ∧
    decode ⟨.host, [2, 2, 1, 3, 0x01, 0x00]⟩ = .ok (.receiveMessage 2 1 3 0x0100) ∧
    decode ⟨.host, [3, 3, 2, 0, 0, 0, 0, 0x02, 0x01]⟩ = .ok (.sendCmdMessage 3 #v[2, 0, 0, 0, 0] 0x0201) ∧
    decode ⟨.host, [4, 3, 0x12, 0x34, 3, 1, 1, 2, 0, 0, 0, 0, 0, 0, 0, 0, 0, 0, 0, 0]⟩ =
      .ok (.defineDevices [⟨3, 0x1234, #v[⟨true, .s2m, 1⟩, ⟨true, .m2s, 2⟩, ⟨false, .m2s, 0⟩, ⟨false, .m2s, 0⟩,
        ⟨false, .m2s, 0⟩, ⟨false, .m2s, 0⟩, ⟨false, .m2s, 0⟩, ⟨false, .m2s, 0⟩]⟩]) ∧
    decode ⟨.host, [5, 2, 1, 0x01, 0x10, 4, 0, 5, 0, 3]⟩ = .ok (.defineMirroring [⟨2, 1, 0x0110, 4, 5, 3⟩]) ∧
    decode ⟨.host, [6]⟩ = .ok .mirrorTick ∧
    decode ⟨.host, [7, 3, 31]⟩ = .ok (.renumId 3 31) ∧
    decode ⟨.host, [8]⟩ = .ok .checkConfig ∧
    decode ⟨.host, [9]⟩ = .ok .autoConfig := by decide

/-- R115: selectors 10 to 15, and none above. -/
theorem test_decode_reserved :
    decode ⟨.host, [10]⟩ = .ok .opReserved10 ∧ decode ⟨.host, [11]⟩ = .ok .opReserved11 ∧
    decode ⟨.host, [12]⟩ = .ok .opReserved12 ∧ decode ⟨.host, [13]⟩ = .ok .opReserved13 ∧
    decode ⟨.host, [14]⟩ = .ok .opReserved14 ∧ decode ⟨.host, [15]⟩ = .ok .opReserved15 ∧
    decode ⟨.host, [16]⟩ = .error .badSelector := by decide

/-- The codec port (log 11), with the operands of V-CRC-5, V-CRC-10, V-COD-1, V-COD-5, V-COD-7, V-COD-9, V-COD-12 and
V-COD-14. -/
theorem test_decode_codec :
    decode ⟨.codec, [0, 0xC5, 0x01]⟩ = .ok (.crc8 0xC5 0x01) ∧
    decode ⟨.codec, [1, 0xC5, 0x01, 0x64]⟩ = .ok (.crc8Over [0x01, 0x64] 0xC5) ∧
    decode ⟨.codec, [2, 7, 3]⟩ = .ok (.makeHeader 7 3) ∧
    decode ⟨.codec, [3, 0xE3]⟩ = .ok (.splitHeader 0xE3) ∧
    decode ⟨.codec, [4, 0xE3]⟩ = .ok (.headerCrc 0xE3) ∧
    decode ⟨.codec, [5, 2, 0, 0x01, 0x64]⟩ = .ok (.buildWriteFrame 2 0 [0x01, 0x64]) ∧
    decode ⟨.codec, [6, 2, 1]⟩ = .ok (.buildReadRequest 2 1) ∧
    decode ⟨.codec, [7, 3, 1, 7, 0, 0, 0]⟩ = .ok (.buildCmdFrame 3 #v[1, 7, 0, 0, 0]) ∧
    decode ⟨.codec, [8, 0xAA, 0x0A]⟩ = .ok (.payloadOk [0xAA, 0x0A]) ∧
    decode ⟨.codec, [9, 0x12, 0x34, 0x01, 0x02, 0x85]⟩ = .ok (.decodeInquire #v[0x12, 0x34, 0x01, 0x02, 0x85]) := by
  decide

/-- V-COD-17, R116, R169: an operand beyond its field is refused, never masked. -/
theorem test_decode_never_masks :
    decode ⟨.codec, [2, 8, 0]⟩ = .error .fieldOutOfRange ∧ decode ⟨.codec, [2, 0, 32]⟩ = .error .fieldOutOfRange ∧
    decode ⟨.host, [1, 2, 7]⟩ = .error (.illFormed .classNotData) := by decide

/-- Words of opcode_table.json: `HEADER<<8 | REQUEST[0]`, a header, a selector (log 11). -/
theorem test_table_words :
    decodeTableWord 16 0xE302 = some (.cmdInquire 3 0 #v[0, 0, 0, 0] 0) ∧
    decodeTableWord 16 0xE0FF = some (.cmdReserved 0 0 0xFF #v[0, 0, 0, 0] 0) ∧
    decodeTableWord 8 0x5E = some (.data2 30 0 []) ∧ decodeTableWord 8 3 = some (.sendCmdMessage 0 #v[0, 0, 0, 0, 0] 0) ∧
    decodeTableWord 8 12 = some .opReserved12 ∧ decodeTableWord 16 0x0200 = some (.data0 2 0 [0, 0, 0, 0, 0, 0]) := by
  decide

/-! ## Small states -/

/-- The slots of the slaves of sections 3 and 4: class 0 a write of 2, class 1 a read of 1, class 2 a read of 0, class 3 a
read of 3, the others ignored. -/
def catalog : Vector SlotKind 8 :=
  #v[.receive 1, .transmit 1, .transmit 0, .transmit 3, .ignore, .ignore, .ignore, .ignore]

/-- A slave of section 4: type 0x1234, firmware 0x0102, hardware revision 5. -/
def at' (a : Addr) : SlaveConfig := ⟨a, 0x1234, 0x0102, 5, catalog⟩

/-- The same slave right after its reset. -/
def slaveAt (a : Addr) : Slave := Slave.afterReset (at' a)

/-- An initialised system with these slaves; the draws are those of the vectors, the break echoes as 0xEE. -/
def sys (slaves : List SlaveConfig) (draws : List Byte) : State :=
  let s := State.afterReset Config.reference slaves
  { s with free := ⟨0xEE :: draws, 0⟩, master := { s.master with initialized := true, transport := some ⟨true⟩ } }

/-- The same system with these disturbances to come. -/
def noisy (noise : List Noise) (s : State) : State := { s with bus := { s.bus with noise := noise } }

/-- The same system with this MAX_PAYLOAD. -/
def upTo (n : Nat) (s : State) : State := { s with params := { s.params with maxPayload := n } }

/-- The same system with a mirror table of this capacity. -/
def holding (n : Nat) (s : State) : State := { s with params := { s.params with mirrorMax := some n } }

/-- A value of the next state, if there is one. -/
def seen {α : Type} (f : State → α) (o : Host.Outcome State Fault Refusal) : Option α := (nextOf o).map f

/-- Result, count and bytes read of a host operation. -/
def outcome (s : State) : Option ResultCode × List Byte := (s.master.result, s.master.rxbuf)

/-- The callbacks of the first slave, the oldest first. -/
def calls (s : State) : List Call := (s.slaves.flatMap fun sl => sl.dev.calls).reverse

/-- Where the slaves live and in which state they are. -/
def places (s : State) : List (SlaveState × Addr × Addr) := s.slaves.map fun sl => (sl.st, sl.ownAddr, sl.eepromAddr)

/-- The next state, where there is one. -/
def after (o : Host.Outcome State Fault Refusal) : State := (nextOf o).getD State.reset

/-! ## Wire frames -/

/-- P1: the write is stored and acknowledged. -/
theorem test_data0_write :
    seen (fun t => (t.bus.stream, calls t)) (exec (.data0 2 0x5B [0x01, 0x64, 0x82]) (sys [at' 2] [])) =
      some ([0xEE, 0x02, 0x5B, 0x01, 0x64, 0x82, 0x55],
        [.initTransfer 0, .storeByte 0x01, .storeByte 0x64, .endTransfer 0, .enableTransmitEmptySignal true,
          .enableTransmitEmptySignal false]) := by decide

/-- P1b: a payload bit flipped for every receiver: stored, not acknowledged. -/
theorem test_data0_corrupted :
    seen (fun t => (t.bus.stream, calls t)) (exec (.data0 2 0x5B [0x01, 0x65, 0x82]) (sys [at' 2] [])) =
      some ([0xEE, 0x02, 0x5B, 0x01, 0x65, 0x82], [.initTransfer 0, .storeByte 0x01, .storeByte 0x65]) := by decide

/-- P2: the read of one byte. -/
theorem test_data1_read :
    seen (fun t => (t.bus.stream, calls t)) (exec (.data1 2 0xBB []) (sys [at' 2] [0xAA])) =
      some ([0xEE, 0x22, 0xBB, 0xAA, 0x0A],
        [.initTransfer 1, .enableTransmitEmptySignal true, .fetchByte (some 0xAA), .fetchByte none,
          .enableTransmitEmptySignal false, .endTransfer 1]) := by decide

/-- V-RCV-4: a read slot of length 0 answers the seed alone. -/
theorem test_data2_empty_read :
    seen (·.bus.stream) (exec (.data2 2 0x9C []) (sys [at' 2] [])) = some [0xEE, 0x42, 0x9C, 0xC5] := by decide

/-- V-RCV-5. -/
theorem test_data3_read :
    seen (·.bus.stream) (exec (.data3 2 0x7C []) (sys [at' 2] [0x10, 0x20, 0x30])) =
      some [0xEE, 0x62, 0x7C, 0x10, 0x20, 0x30, 0xD1] := by decide

/-- R265: the header CRC is good, the address is another's: class 4 at 3 is not for the slave at 2. -/
theorem test_data4_other_address :
    seen (fun t => (t.bus.stream, calls t)) (exec (.data4 3 0xD5 []) (sys [at' 2] [])) =
      some ([0xEE, 0x83, 0xD5], []) := by decide

/-- V-RCV-9, V-FSM-8: the device ignores class 5. -/
theorem test_data5_ignored :
    seen (fun t => (t.bus.stream, calls t)) (exec (.data5 2 0x32 []) (sys [at' 2] [])) =
      some ([0xEE, 0xA2, 0x32], [.initTransfer 5]) := by decide

/-- V-FSM-5: a wrong header CRC is not answered and the device is not asked. -/
theorem test_data6_bad_header_crc :
    seen (fun t => (places t, calls t)) (exec (.data6 2 0x14 []) (sys [at' 2] [])) =
      some ([(.waitBreak, 2, 2)], []) := by decide

/-- P3: the reply to PROBE. -/
theorem test_cmdProbe :
    seen (·.bus.stream) (exec (.cmdProbe 3 0xF2 #v[0, 0, 0, 0] 0xB2) (sys [at' 3] [0xDE, 0xAD, 0xBE, 0xEF, 0x42])) =
      some [0xEE, 0xE3, 0xF2, 0, 0, 0, 0, 0, 0xB2, 0xDE, 0xAD, 0xBE, 0xEF, 0x42, 0x03] := by decide

/-- P3b: two slaves answer at once and the line carries the AND. -/
theorem test_cmdProbe_collision :
    seen (·.bus.stream) (exec (.cmdProbe 3 0xF2 #v[0, 0, 0, 0] 0xB2)
      (sys [at' 3, at' 3] [0xA7, 0x3C, 0x59, 0xE1, 0x0F, 0xB6, 0x3D, 0xD8, 0x71, 0x8E])) =
      some [0xEE, 0xE3, 0xF2, 0, 0, 0, 0, 0, 0xB2, 0xA6, 0x3C, 0x58, 0x61, 0x0E, 0x04] := by decide

/-- P4: the lone slave confirms after its backoff and moves. -/
theorem test_cmdRenum :
    seen (fun t => (t.bus.stream, places t, calls t)) (exec (.cmdRenum 3 0xF2 7 #v[0, 0, 0] 0xB2)
      (sys [at' 3] [0xDE, 0xAD, 0xBE, 0xEF, 0x42, 3])) =
      some ([0xEE, 0xE3, 0xF2, 1, 7, 0, 0, 0, 0xB2, 0xDE, 0xAD, 0xBE, 0xEF, 0x42, 0x03], [(.waitBreak, 7, 7)],
        [.persistAddress 7]) := by decide

/-- V-REN-5: equal fillers and equal backoffs: both commit. -/
theorem test_cmdRenum_equal_fillers :
    seen places (exec (.cmdRenum 3 0xF2 7 #v[0, 0, 0] 0xB2) (sys [at' 3, at' 3]
      [0x10, 0x20, 0x30, 0x40, 0x50, 1, 0x10, 0x20, 0x30, 0x40, 0x50, 1])) =
      some [(.waitBreak, 7, 7), (.waitBreak, 7, 7)] := by decide

/-- P3: INQUIRE with the button pressed. -/
theorem test_cmdInquire :
    seen (·.bus.stream) (exec (.cmdInquire 3 0xF2 #v[0, 0, 0, 0] 0x76) (sys [at' 3] [1])) =
      some [0xEE, 0xE3, 0xF2, 2, 0, 0, 0, 0, 0x76, 0x12, 0x34, 0x01, 0x02, 0x85, 0x66] := by decide

/-- V-CMD-3: a reserved sub-command is not answered. -/
theorem test_cmdReserved :
    seen (fun t => (t.bus.stream, places t)) (exec (.cmdReserved 3 0xF2 9 #v[0, 0, 0, 0] 0xC9) (sys [at' 3] [])) =
      some ([0xEE, 0xE3, 0xF2, 9, 0, 0, 0, 0, 0xC9], [(.waitBreak, 3, 3)]) := by decide

/-! ## Host operations -/

/-- R181. -/
theorem test_init :
    seen (fun t => (t.master.initialized, t.master.transport, t.master.result)) (exec (.init false) State.reset) =
      some (true, some ⟨false⟩, some .ok) := by decide

/-- V-SND-1, P1. -/
theorem test_sendMessage :
    seen outcome (exec (.sendMessage 2 0 [0x01, 0x64]) (sys [at' 2] [])) =
      some (some .ok, [0xEE, 0x02, 0x5B, 0x01, 0x64, 0x82, 0x55]) := by decide

/-- P1c, P1d, V-SND-6: the flip at the master only, the acknowledge corrupted, both. -/
theorem test_sendMessage_corrupted :
    (seen outcome (exec (.sendMessage 2 0 [0x01, 0x64]) (noisy [.clean, .clean, .clean, .flipAtMaster 1] (sys [at' 2] []))) =
      some (some .crcError, [0xEE, 0x02, 0x5B, 0x01, 0x65, 0x82, 0x55])) ∧
    (seen outcome (exec (.sendMessage 2 0 [0x01, 0x64])
        (noisy [.clean, .clean, .clean, .clean, .clean, .flipAtMaster 0x10] (sys [at' 2] []))) =
      some (some .notAcknowledged, [0xEE, 0x02, 0x5B, 0x01, 0x64, 0x82, 0x45])) ∧
    (seen outcome (exec (.sendMessage 2 0 [0x01, 0x64])
        (noisy [.clean, .clean, .clean, .flipAtMaster 1, .clean, .flipAtMaster 0x10] (sys [at' 2] []))) =
      some (some .crcError, [0xEE, 0x02, 0x5B, 0x01, 0x65, 0x82, 0x45])) := by decide

/-- V-RCV-5: the buffer gets the payload. -/
theorem test_receiveMessage :
    seen (fun t => (outcome t, t.mem)) (exec (.receiveMessage 2 3 3 0x0100) (sys [at' 2] [0x10, 0x20, 0x30])) =
      some ((some .ok, [0xEE, 0x62, 0x7C, 0x10, 0x20, 0x30, 0xD1]), [(0x100, 0x10), (0x101, 0x20), (0x102, 0x30)]) := by
  decide

/-- V-RCV-6, V-RCV-7, V-RCV-8: more asked for than there is, less, and a write slot. -/
theorem test_receiveMessage_wrong_length :
    (seen (·.master.result) (exec (.receiveMessage 2 3 4 0) (sys [at' 2] [0x10, 0x20, 0x30])) = some (some .timeout)) ∧
    (seen (·.master.result) (exec (.receiveMessage 2 3 2 0) (sys [at' 2] [0x10, 0x20, 0x30])) = some (some .crcError)) ∧
    (seen (·.master.result) (exec (.receiveMessage 2 0 2 0) (sys [at' 2] [])) = some (some .noResponse)) := by decide

/-- V-CMD-1. -/
theorem test_sendCmdMessage :
    seen (fun t => (t.master.result, Memory.load 0x200 5 t.mem))
      (exec (.sendCmdMessage 3 #v[0, 0, 0, 0, 0] 0x0200) (sys [at' 3] [0xDE, 0xAD, 0xBE, 0xEF, 0x42])) =
      some (some .ok, [0xDE, 0xAD, 0xBE, 0xEF, 0x42]) := by decide

/-- V-CMD-5 and V-CMD-4: a collision of equal INQUIRE replies is not seen, one of PROBE replies is a CRC error. -/
theorem test_sendCmdMessage_collision :
    (seen (·.master.result) (exec (.sendCmdMessage 3 #v[2, 0, 0, 0, 0] 0) (sys [at' 3, at' 3] [0, 0])) =
      some (some .ok)) ∧
    (seen (·.master.result) (exec (.sendCmdMessage 3 #v[0, 0, 0, 0, 0] 0)
        (sys [at' 3, at' 3] [0xA7, 0x3C, 0x59, 0xE1, 0x0F, 0xB6, 0x3D, 0xD8, 0x71, 0x8E])) = some (some .crcError)) := by
  decide

/-- The declaration of P6: slot 0 written with 2 bytes, slot 1 read with 1. -/
def decl2 : Decl :=
  ⟨2, 0x1234, #v[⟨true, .m2s, 2⟩, ⟨true, .s2m, 1⟩, ⟨false, .m2s, 0⟩, ⟨false, .m2s, 0⟩,
    ⟨false, .m2s, 0⟩, ⟨false, .m2s, 0⟩, ⟨false, .m2s, 0⟩, ⟨false, .m2s, 0⟩]⟩

/-- V-DIR-1: exactly the listed entries are valid, and an older declaration is gone. -/
theorem test_defineDevices :
    seen (fun t => usableAddrs.filter fun a => (t.master.decl a).valid)
      (exec (.defineDevices [declAt 3 0x1234, declAt 7 0x1234]) (after (exec (.defineDevices [decl2]) (sys [] [])))) =
      some [3, 7] := by decide +kernel

/-- The two entries of P6. -/
def defs6 : List MirrorDef := [⟨2, 0, 0x10, 2, 4, 1⟩, ⟨2, 1, 0x20, 1, 2, 0⟩]

/-- P6 before call 0, with these slaves on the bus. -/
def p6 (slaves : List SlaveConfig) (draws : List Byte) : State :=
  { after (exec (.defineMirroring defs6) (after (exec (.defineDevices [decl2]) (sys slaves draws)))) with
    mem := [(0x10, 0x01), (0x11, 0x64)] }

/-- P6: the table as installed, every ticker 0. -/
theorem test_defineMirroring :
    (p6 [at' 2] []).master.mirror = [⟨2, 0, 0x10, 2, 4, 1, 0⟩, ⟨2, 1, 0x20, 1, 2, 0, 0⟩] ∧
    (p6 [at' 2] []).master.result = some .ok := by decide +kernel

/-- P6, calls 0 and 1: the read entry fires, then the write entry. -/
theorem test_mirrorTick :
    (seen (fun t => (t.master.result, Memory.read t.mem 0x20, t.master.mirror.map (·.ticker)))
        (exec .mirrorTick (p6 [at' 2] [0xAA])) = some (some .ok, 0xAA, [1, 1])) ∧
    (seen (fun t => (t.master.txbuf, t.master.mirror.map (·.ticker)))
        (exec .mirrorTick (after (exec .mirrorTick (p6 [at' 2] [0xAA])))) =
      some ([0x02, 0x5B, 0x01, 0x64, 0x82], [2, 0])) := by decide +kernel

/-- P6 with the slave unplugged: the failure is reported, the tickers move all the same. -/
theorem test_mirrorTick_unplugged :
    seen (fun t => (t.master.result, t.master.failedAddress, t.master.mirror.map (·.ticker)))
      (exec .mirrorTick (p6 [] [])) = some (some .noResponse, 2, [1, 1]) := by decide +kernel

/-- P4. -/
theorem test_renumId :
    seen (fun t => (t.master.result, places t)) (exec (.renumId 3 7) (sys [at' 3] [0xDE, 0xAD, 0xBE, 0xEF, 0x42, 3])) =
      some (some .ok, [(.waitBreak, 7, 7)]) := by decide

/-- P4c: the first attempt ends with both dropping, the second with one committing. -/
theorem test_renumId_two_attempts :
    seen (fun t => (t.master.result, places t)) (exec (.renumId 3 7) (sys [at' 3, at' 3]
      ([0xA7, 0x3C, 0x59, 0xE1, 0x0F, 4, 0xB6, 0x3D, 0xD8, 0x71, 0x8E, 4, 0xEE] ++
        [0xFF, 0xF0, 0x0F, 0xAA, 0x55, 1, 0x0F, 0xF0, 0x0F, 0x0A, 0x55, 1]))) =
      some (some .ok, [(.waitBreak, 3, 3), (.waitBreak, 7, 7)]) := by decide +kernel

/-- V-CHK-2, V-CHK-3: nobody there, another type there. -/
theorem test_checkConfig :
    (seen (fun t => (t.master.result, t.master.failedAddress))
        (exec .checkConfig (after (exec (.defineDevices [declAt 3 0x1234, declAt 7 0x1234]) (sys [at' 7] [])))) =
      some (some .noResponse, 3)) ∧
    (seen (fun t => (t.master.result, t.master.failedAddress))
        (exec .checkConfig (after (exec (.defineDevices [declAt 3 0x1111]) (sys [at' 3] (List.replicate 40 0))))) =
      some (some .typeConflict, 3)) := by decide +kernel

/-- V-AUT-4: 3 declared, nobody anywhere. -/
theorem test_autoConfig_silent :
    seen (fun t => (t.master.result, t.master.resultPerAddress.get 3, t.master.resultPerAddress.get 0, t.master.mutexDepth))
      (exec .autoConfig (after (exec (.defineDevices [declAt 3 0x1234]) (sys [] [])))) =
      some (some .ok, .noResponse, .rescan, 0) := by decide +kernel

/-- V-AUT-3: the one slave has another type and nobody can be swapped with it. -/
theorem test_autoConfig_type_conflict :
    seen (fun t => (t.master.result, places t))
      (exec .autoConfig (after (exec (.defineDevices [declAt 3 0x1111]) (sys [at' 3] (List.replicate 40 0))))) =
      some (some .typeConflict, [(.waitBreak, 3, 3)]) := by decide +kernel

/-! ## Codec functions -/

/-- V-CRC-5, V-CRC-7. -/
theorem test_crc8 :
    seen (·.codecOut) (exec (.crc8 0xC5 0x01) State.reset) = some (.byte 0x52) ∧
    seen (·.codecOut) (exec (.crc8 0x00 0x80) State.reset) = some (.byte 0x89) := by decide

/-- V-CRC-17, V-CRC-19. -/
theorem test_crc8Over :
    seen (·.codecOut) (exec (.crc8Over [0xDE, 0xAD, 0xBE, 0xEF, 0x42] 0xC5) State.reset) = some (.byte 0x03) ∧
    seen (·.codecOut) (exec (.crc8Over [0x31, 0x32, 0x33, 0x34, 0x35, 0x36, 0x37, 0x38, 0x39] 0xC5) State.reset) =
      some (.byte 0x40) := by decide

/-- Table of 3.2 and V-COD-1. -/
theorem test_headers :
    seen (·.codecOut) (exec (.makeHeader 5 30) State.reset) = some (.byte 0xBE) ∧
    seen (·.codecOut) (exec (.headerCrc 0xBE) State.reset) = some (.byte 0x66) ∧
    seen (·.codecOut) (exec (.splitHeader 0xE3) State.reset) = some (.header 7 3) := by decide

/-- V-COD-5, V-COD-6, V-COD-7, V-COD-10. -/
theorem test_frames :
    seen (·.codecOut) (exec (.buildWriteFrame 2 0 [0x01, 0x64]) State.reset) = some (.bytes [0x02, 0x5B, 0x01, 0x64, 0x82]) ∧
    seen (·.codecOut) (exec (.buildWriteFrame 2 0 []) State.reset) = some (.bytes [0x02, 0x5B, 0xC5]) ∧
    seen (·.codecOut) (exec (.buildReadRequest 2 1) State.reset) = some (.bytes [0x22, 0xBB]) ∧
    seen (·.codecOut) (exec (.buildCmdFrame 3 #v[2, 0, 0, 0, 0]) State.reset) =
      some (.bytes [0xE3, 0xF2, 2, 0, 0, 0, 0, 0x76]) := by decide

/-- V-COD-12, V-COD-13. -/
theorem test_payloadOk :
    seen (·.codecOut) (exec (.payloadOk [0x12, 0x34, 0x01, 0x02, 0x85, 0x66]) State.reset) = some (.flag true) ∧
    seen (·.codecOut) (exec (.payloadOk [0xA6, 0x3C, 0x58, 0x61, 0x0E, 0x04]) State.reset) = some (.flag false) := by decide

/-- V-COD-14, V-COD-16. -/
theorem test_decodeInquire :
    seen (·.codecOut) (exec (.decodeInquire #v[0x12, 0x34, 0x01, 0x02, 0x85]) State.reset) =
      some (.inquire 0x1234 0x0102 5 true) ∧
    seen (·.codecOut) (exec (.decodeInquire #v[0xFF, 0xFF, 0, 0, 0x7F]) State.reset) =
      some (.inquire 0xFFFF 0 127 false) := by decide

/-! ## Reset and the fetch -/

/-- R392, R348: a host operation first after reset answers NOT_INITIALIZED. -/
theorem test_first_step_after_reset :
    seen (·.master.result) (step (State.reset.withFetchWord 8 9)) = some (some .notInitialized) := by decide

/-- R281: bytes that are no frame are carried; the break and a lone header byte are heard. -/
theorem test_wire_bytes_are_carried :
    seen (·.bus.stream) (step { sys [at' 2] [] with inputs := [.request ⟨.wire, [0x02]⟩] }) = some [0xEE, 0x02] := by decide

/-- R35: a slot longer than MAX_PAYLOAD is refused, one of that length is not. -/
theorem test_defineDevices_max_payload :
    (seen (·.master.result) (exec (.defineDevices [decl2]) (upTo 1 (sys [] [])))).isNone = true ∧
    seen (·.master.result) (exec (.defineDevices [decl2]) (upTo 2 (sys [] []))) = some (some .ok) := by decide +kernel

/-- R9, R34, D35: a configured TIMEOUT_US is what the master comes up with. -/
theorem test_reset_takes_the_configured_timeout :
    seen (·.master.timeoutUs) (step { sys [] [] with
      params := { Config.reference with timeoutUs := 2000 }, inputs := [.resetMaster] }) = some 2000 := by decide

/-! ## Witnesses: encoding, fetching, reset -/

theorem witness_DecodeUndoesEncode :
    wellFormed (.data6 31 0xFF []) = true ∧ wellFormed (.cmdReserved 31 0 3 #v[0, 0, 0, 0] 0) = true ∧
    wellFormed (.sendMessage 31 6 []) = true ∧ wellFormed (.defineDevices [declAt 1 0, declAt 30 0]) = true ∧
    wellFormed (.defineMirroring [⟨2, 6, 0, 0, 1, 0⟩, ⟨2, 0, 0, 0, 0xFFFF, 0xFFFE⟩]) = true := by decide

theorem witness_EncodeUndoesDecode : decode ⟨.host, [7, 31, 0]⟩ = .ok (.renumId 31 0) := by decide

/-- A state with these inputs pending. -/
def pending (inputs : List Input) : State := { sys [at' 3, at' 2] [] with inputs := inputs }

theorem witness_StepRunsDecodedInstruction :
    (pending [.request ⟨.host, [6]⟩]).master.autoPasses = none ∧ decode ⟨.host, [6]⟩ = .ok .mirrorTick ∧
    parse ⟨.host, [1, 2, 7]⟩ = .ok (.sendMessage 2 7 []) ∧ decode ⟨.host, [1, 2, 7]⟩ = .error (.illFormed .classNotData) ∧
    parse ⟨.wire, [0x02]⟩ = .error .notAFrame ∧ parse ⟨.host, [16]⟩ = .error .badSelector ∧
    decodeTableWord 8 0 = some (.init false) ∧
    decodeTableWord 8 0xDF = some (.data6 31 0 []) ∧
    decodeTableWord 16 0xFFFF = some (.cmdReserved 31 0 0xFF #v[0, 0, 0, 0] 0) := by decide

theorem witness_QuiescentStateStays : State.reset.Quiescent ∧ State.reset.inputs = [] := by decide

/-- The slave at 2 with its acknowledge to send, twice told that its transmitter is empty. -/
def acknowledging : State :=
  { pending [.event 1 .txe, .event 1 .txe] with slaves := [slaveAt 3, { slaveAt 2 with st := .txAck, txEn := true }] }

/-- R78: the second TXE does not occur, and one acknowledge is in flight. -/
theorem test_txe_occurs_once :
    seen (·.bus.inFlight) (step (after (step acknowledging))) = some [(1, 0x55)] := by decide

/-- TXE where it occurs, where the slave has not enabled it, and where its transmitter holds a byte. -/
theorem witness_EventReachesOneSlave :
    ((pending [.event 1 .txe]).master.autoPasses = none ∧ (pending [.event 1 .txe]).inputs = .event 1 .txe :: [] ∧
      (pending [.event 1 .txe]).slaves[1]? = some (slaveAt 2) ∧ (slaveAt 2).txEn = false) ∧
    (acknowledging.inputs = .event 1 .txe :: [.event 1 .txe] ∧
      acknowledging.slaves[1]? = some { slaveAt 2 with st := .txAck, txEn := true } ∧
      ∀ x ∈ acknowledging.bus.inFlight, x.1 ≠ 1) ∧
    ((after (step acknowledging)).master.autoPasses = none ∧
      (after (step acknowledging)).inputs = .event 1 .txe :: [] ∧
      ∃ x ∈ (after (step acknowledging)).bus.inFlight, x.1 = 1) := by decide

theorem witness_ResetOfAnAgent :
    (pending [.resetSlave 0]).master.autoPasses = none ∧ (pending [.resetSlave 0]).inputs = .resetSlave 0 :: [] ∧
    (pending [.resetSlave 0]).slaves[0]? = some (slaveAt 3) ∧
    (pending [.resetMaster]).inputs = .resetMaster :: [] := by decide

/-! ## Witnesses: CRC -/

theorem witness_CrcResidueIsZero : CrcLaws Config.reference := reference_laws

theorem witness_CrcCheckIsEquality : CrcLaws Config.reference := reference_laws

theorem witness_BuiltFramesVerify : CrcLaws Config.reference := reference_laws

/-- V-CRC-11 and V-CRC-13. -/
theorem witness_CrcDetectsOneByte :
    CrcLaws Config.reference ∧ (0x64 : Byte) ≠ 0x65 ∧
    payloadOk Config.reference ([0x01] ++ 0x64 :: [0x82]) = true :=
  ⟨reference_laws, by decide, by decide⟩

/-! ## Witnesses: events of a slave -/

/-- The slave at 2 of section 3.4 in this state, with this running CRC and index. -/
def inState (st : SlaveState) (crc idx : Byte) : Slave := { slaveAt 2 with st := st, crc := crc, idx := idx }

/-- The slave with this header taken and this header CRC byte to come. -/
def withHeader (h crc : Byte) : Slave := { inState .rxHeader crc 1 with hdr := h }

theorem witness_IgnoredEventsChangeNothing :
    ((inState .waitBreak 0 0).st = .waitBreak ∧ (inState .txAck 0 0).st = .txAck ∧ (inState .txMsg 0 0).st = .txMsg ∧
      (inState .txCtrlResp 0 0).st = .txCtrlResp) ∧
    ((inState .rxMsg 0 0).st ≠ .txAck ∧ (inState .rxMsg 0 0).st ≠ .txMsg ∧ (inState .rxMsg 0 0).st ≠ .txCtrlResp) ∧
    (inState .txMsg 0 0).st ≠ .waitRenumTimer := by decide

/-- V-FSM-3 to V-FSM-9. -/
theorem witness_HeaderBytesAreDecoded :
    (inState .rxHeader 0xC5 0).idx = 0 ∧
    (crc8 Config.reference (withHeader 0x02 0x5B).crc 0x5A ≠ 0) ∧
    (crc8 Config.reference (withHeader 0x03 0x5C).crc 0x5C = 0 ∧ headerAddr (withHeader 0x03 0x5C).hdr ≠ 2) ∧
    (crc8 Config.reference (withHeader 0xE2 0xF5).crc 0xF5 = 0 ∧ headerAddr (withHeader 0xE2 0xF5).hdr = 2 ∧
      headerClass (withHeader 0xE2 0xF5).hdr = 7) ∧
    (crc8 Config.reference (withHeader 0x02 0x5B).crc 0x5B = 0 ∧ headerAddr (withHeader 0x02 0x5B).hdr = 2 ∧
      headerClass (withHeader 0x02 0x5B).hdr ≠ 7 ∧ (withHeader 0x02 0x5B).dev.kind 0 = .receive 1) ∧
    (withHeader 0x22 0xBB).dev.kind (headerClass (withHeader 0x22 0xBB).hdr) = .transmit 1 ∧
    (withHeader 0xA2 0x32).dev.kind (headerClass (withHeader 0xA2 0x32).hdr) = .ignore := by decide

/-- V-FSM-12, V-FSM-13 (more to come and not), V-FSM-14, V-FSM-15. -/
theorem witness_WriteBytesAreReceived :
    ((inState .rxMsg 0xC5 0).dev.kind (inState .rxMsg 0xC5 0).msgClass = .receive 1 ∧ (inState .rxMsg 0xC5 0).dev.pos < 1) ∧
    ¬ (({ (inState .rxMsg 0x52 0).dev with pos := 1 } : Device).pos < 1) ∧
    crc8 Config.reference (inState .checkRxCrc 0x85 0).crc 0x82 ≠ 0 ∧
    crc8 Config.reference (inState .checkRxCrc 0x82 0).crc 0x82 = 0 := by decide

/-- V-FSM-21 to V-FSM-26, with the first and the last reserved sub-command. -/
theorem witness_CommandBytesAreReceived :
    (inState .rxCtrlMsg 0xC5 0).idx.toNat < 5 ∧ (inState .rxCtrlMsg 0xE4 4).idx.toNat < 5 ∧
    crc8 Config.reference (inState .checkRxCtrlCrc 0xB2 5).crc 0xB3 ≠ 0 ∧
    crc8 Config.reference (inState .checkRxCtrlCrc 0xB2 5).crc 0xB2 = 0 ∧
    (inState .checkRxCtrlCrc 0xB2 5).ctrlReq[0] = 0 ∧
    ({ inState .checkRxCtrlCrc 0x76 5 with ctrlReq := #v[2, 0, 0, 0, 0] } : Slave).ctrlReq[0] = 2 ∧
    (3 : Byte) ≤ ({ inState .checkRxCtrlCrc 0 5 with ctrlReq := #v[3, 0, 0, 0, 0] } : Slave).ctrlReq[0] ∧
    (3 : Byte) ≤ ({ inState .checkRxCtrlCrc 0 5 with ctrlReq := #v[0xFF, 0, 0, 0, 0] } : Slave).ctrlReq[0] := by decide

/-- The slave at 2 sending its read slot of this class, at this byte of it. -/
def sending (cls : MsgClass) (pos : Nat) : Slave :=
  { inState .txMsg 0xC5 1 with msgClass := cls, dev := { (slaveAt 2).dev with pos := pos } }

/-- V-FSM-16, V-FSM-18 to V-FSM-20, V-FSM-24. -/
theorem witness_TransmitEmptySendsTheReply :
    (inState .txAck 0 0).st = .txAck ∧
    ((sending 1 0).st = .txMsg ∧ (sending 1 0).dev.kind (sending 1 0).msgClass = .transmit 1 ∧ (sending 1 0).dev.pos < 1) ∧
    1 ≤ (sending 1 1).dev.pos ∧
    ((sending 2 0).dev.kind (sending 2 0).msgClass = .transmit 0 ∧ 0 ≤ (sending 2 0).dev.pos) ∧
    ((inState .txCtrlResp 0xC5 0).idx.toNat < 5 ∧ (inState .txCtrlResp 0x2E 4).idx.toNat < 5) ∧
    5 ≤ (inState .txCtrlResp 0x03 5).idx.toNat := by decide

/-- A slave in its backoff with this many microseconds left. -/
def waiting (t : Word16) : Slave := { inState .waitRenumTimer 0 5 with renumTimer := t }

/-- A slave that confirms a RENUM from 3 to this address with this filler, its first byte handed over. -/
def confirming (target : Addr) (filler : Vector Byte 5) : Slave :=
  { slaveAt 3 with
    st := .txRenumConf, idx := 1, ctrlReq := #v[1, 7, 0, 0, 0], ctrlResp := filler, lastTx := filler[0]
    crc := crc8 Config.reference 0xC5 filler[0], renumTarget := target }

/-- V-REN-1, V-REN-1b, V-REN-1c, V-REN-1e to V-REN-1g; the last timer at which the confirmation starts, the first at
which it does not; the highest new address, and the bytes from 32 on. -/
theorem witness_RenumberEventsFollowTheRules :
    (crc8 Config.reference (inState .checkRxCtrlCrc 0xB2 5).crc 0xB2 = 0 ∧
      ({ inState .checkRxCtrlCrc 0xB2 5 with ctrlReq := #v[1, 7, 0, 0, 0] } : Slave).ctrlReq[0] = 1 ∧
      ({ inState .checkRxCtrlCrc 0xB2 5 with ctrlReq := #v[1, 7, 0, 0, 0] } : Slave).ctrlReq[1] < 32 ∧
      ({ inState .checkRxCtrlCrc 0xB2 5 with ctrlReq := #v[1, 31, 0, 0, 0] } : Slave).ctrlReq[1] < 32 ∧
      32 ≤ ({ inState .checkRxCtrlCrc 0xB2 5 with ctrlReq := #v[1, 32, 0, 0, 0] } : Slave).ctrlReq[1] ∧
      32 ≤ ({ inState .checkRxCtrlCrc 0xB2 5 with ctrlReq := #v[1, 255, 0, 0, 0] } : Slave).ctrlReq[1]) ∧
    3 % 32 * 2 * Config.reference.charBits * 1000000 / Config.reference.baud = 1562 ∧
    31 % 32 * 2 * Config.reference.charBits * 1000000 / Config.reference.baud < 65536 ∧
    (waiting 1562).st = .waitRenumTimer ∧ Config.reference.tickUs < (waiting 101).renumTimer.toNat ∧
    (waiting 100).renumTimer.toNat ≤ Config.reference.tickUs ∧ (waiting 0).renumTimer.toNat ≤ Config.reference.tickUs ∧
    ((confirming 7 #v[0xDE, 0xAD, 0xBE, 0xEF, 0x42]).st = .txRenumConf ∧
      (0xDF : Byte) ≠ (confirming 7 #v[0xDE, 0xAD, 0xBE, 0xEF, 0x42]).lastTx ∧
      (confirming 7 #v[0xDE, 0xAD, 0xBE, 0xEF, 0x42]).lastTx = 0xDE ∧
      (confirming 7 #v[0xDE, 0xAD, 0xBE, 0xEF, 0x42]).idx.toNat < 5) ∧
    ({ confirming 7 #v[0xDE, 0xAD, 0xBE, 0xEF, 0x42] with idx := 5, lastTx := 0x42 } : Slave).idx = 5 ∧
    ({ confirming 7 #v[0xDE, 0xAD, 0xBE, 0xEF, 0x42] with idx := 6, lastTx := 0x03 } : Slave).idx = 6 := by decide

/-- V-FSM-8 (a class the device ignores) and V-FSM-23. -/
theorem witness_FailureIsSilentReversion :
    ((withHeader 0xA2 0x32).st ≠ .waitBreak ∧
      (onEvent Config.reference (.rx 0x32) (withHeader 0xA2 0x32) ⟨[], 0⟩).slave.st = .waitBreak ∧
      (onEvent Config.reference (.rx 0x32) (withHeader 0xA2 0x32) ⟨[], 0⟩).tx = none) ∧
    ((onEvent Config.reference (.rx 0xB3) (inState .checkRxCtrlCrc 0xB2 5) ⟨[], 0⟩).slave.st = .waitBreak ∧
      (onEvent Config.reference (.rx 0xB3) (inState .checkRxCtrlCrc 0xB2 5) ⟨[], 0⟩).tx = none) := by decide

theorem witness_EventKeepsSlaveSound :
    (slaveAt 2).Sound ∧ (confirming 7 #v[1, 2, 3, 4, 5]).Sound ∧
    (inState .rxCtrlMsg 0 4).Sound ∧ (inState .rxHeader 0 1).Sound := by
  refine ⟨?_, ?_, ?_, ?_⟩ <;> decide

/-- V-REN-1f, V-FSM-16, V-REN-1d: a commit, and the three ways to transmit. -/
theorem witness_WhatASlaveNeverDoes :
    (onEvent Config.reference (.rx 0x03) { confirming 7 #v[0xDE, 0xAD, 0xBE, 0xEF, 0x42] with idx := 6, lastTx := 0x03 }
      ⟨[], 0⟩).slave.ownAddr ≠ (confirming 7 #v[0xDE, 0xAD, 0xBE, 0xEF, 0x42]).ownAddr ∧
    (onEvent Config.reference .txe (inState .txAck 0 0) ⟨[], 0⟩).tx = some 0x55 ∧
    (onEvent Config.reference .tick (waiting 62) ⟨[], 0⟩).tx = some 0 ∧
    (onEvent Config.reference (.rx 0xDE) (confirming 7 #v[0xDE, 0xAD, 0xBE, 0xEF, 0x42]) ⟨[], 0⟩).tx = some 0xAD := by
  decide

/-! ## Witnesses: wire frames -/

/-- A system with the slave at this address between two others, at 0 and at 31. -/
def among (a : Addr) (draws : List Byte) : State := sys [at' 0, at' a, at' 31] draws

/-- The slave between two others is the one addressed. -/
theorem among_addressed (a : Addr) (draws : List Byte) (h0 : a ≠ 0) (h31 : a ≠ 31) :
    (among a draws).Addressed 1 (slaveAt a) a := by
  refine ⟨rfl, rfl, fun j other hj hne => ?_, ⟨rfl, rfl⟩, reference_laws⟩
  match j, hj with
  | 0, hj => exact (Option.some.inj hj).symm ▸ h0.symm
  | 1, _ => exact absurd rfl hne
  | 2, hj => exact (Option.some.inj hj).symm ▸ h31.symm
  | _ + 3, hj => exact absurd hj (by simp [among, sys, State.afterReset])

/-- Another address, and a wrong header CRC. -/
theorem witness_ForeignFrameIsDiscarded :
    (encode (.data0 2 0x5B [0x01]) = ⟨.wire, 0x02 :: 0x5B :: [0x01]⟩ ∧ (sys [at' 3] []).CleanBus ∧
      ∀ sl ∈ (sys [at' 3] []).slaves, sl.ownAddr ≠ headerAddr 0x02) ∧
    (∀ sl ∈ (sys [at' 2] []).slaves, sl.ownAddr = headerAddr 0x02 ∧ 0x5A ≠ headerCrc Config.reference 0x02) ∧
    CrcLaws (sys [at' 3] []).params :=
  ⟨by decide, by decide, reference_laws⟩

theorem witness_IgnoredClassIsDeclined :
    (5, Instr.data5 2 0x32 [0x01]) ∈ dataInstrs 2 (headerCrc Config.reference (makeHeader 5 2)) [0x01] ∧
    (among 2 []).Addressed 1 (slaveAt 2) 2 ∧ (slaveAt 2).dev.kind 5 = .ignore :=
  ⟨by decide, among_addressed 2 [] (by decide) (by decide), by decide⟩

/-- P1. -/
theorem witness_WriteIsStoredAndAcknowledged :
    (0, Instr.data0 2 0x5B [0x01, 0x64, 0x82]) ∈
      dataInstrs 2 (headerCrc Config.reference (makeHeader 0 2))
        ([0x01, 0x64] ++ [payloadCrc Config.reference [0x01, 0x64]]) ∧
    (among 2 []).Addressed 1 (slaveAt 2) 2 ∧ (slaveAt 2).dev.kind 0 = .receive 1 ∧
    ([0x01, 0x64] : List Byte).length = 1 + 1 ∧ (among 2 []).TimeFor 1 :=
  ⟨by decide, among_addressed 2 [] (by decide) (by decide), by decide, by decide, by decide⟩

/-- V-RCV-5 and the read of length 0. -/
theorem witness_ReadIsAnswered :
    (3, Instr.data3 2 0x7C []) ∈ dataInstrs 2 (headerCrc Config.reference (makeHeader 3 2)) [] ∧
    (among 2 [0x10, 0x20, 0x30]).Addressed 1 (slaveAt 2) 2 ∧
    (slaveAt 2).dev.kind 3 = .transmit 3 ∧ (slaveAt 2).dev.kind 2 = .transmit 0 ∧
    (among 2 [0x10, 0x20, 0x30]).TimeFor (3 + 1) ∧
    Free.drawList 3 (among 2 [0x10, 0x20, 0x30]).freeAfterEcho = ([0x10, 0x20, 0x30], ⟨[], 0⟩) ∧
    Free.drawList 0 (among 2 []).freeAfterEcho = ([], ⟨[], 0⟩) :=
  ⟨by decide, among_addressed 2 _ (by decide) (by decide), by decide, by decide, by decide, by decide, by decide⟩

/-- P3, with the first and the last reserved sub-command. -/
theorem witness_CommandsAreAnswered :
    (among 3 [0xDE, 0xAD, 0xBE, 0xEF, 0x42]).Addressed 1 (slaveAt 3) 3 ∧
    (among 3 [0xDE, 0xAD, 0xBE, 0xEF, 0x42]).TimeFor 6 ∧
    Free.drawList 5 (among 3 [0xDE, 0xAD, 0xBE, 0xEF, 0x42]).freeAfterEcho =
      ([0xDE, 0xAD, 0xBE, 0xEF, 0x42], ⟨[], 0⟩) ∧
    (among 3 [1]).freeAfterEcho.draw = (1, ⟨[], 0⟩) ∧ (3 : Byte) ≤ 3 ∧ (3 : Byte) ≤ 0xFF :=
  ⟨among_addressed 3 _ (by decide) (by decide), by decide, by decide, by decide, by decide, by decide⟩

/-- P4; and a new-address byte of 32, whose target is then the first draw, here 4. -/
theorem witness_LoneSlaveAdoptsTheNewAddress :
    (among 3 [0xDE, 0xAD, 0xBE, 0xEF, 0x42, 3]).Addressed 1 (slaveAt 3) 3 ∧
    (among 3 [0xDE, 0xAD, 0xBE, 0xEF, 0x42, 3]).TimeToRenumber ∧ (31 : Byte) < 32 ∧
    Free.drawList 5 (among 3 [0xDE, 0xAD, 0xBE, 0xEF, 0x42, 3]).freeAfterEcho =
      ([0xDE, 0xAD, 0xBE, 0xEF, 0x42], ⟨[3], 0⟩) ∧
    (¬(32 : Byte) < 32 ∧
      ((among 3 [0xA4, 0xDE, 0xAD, 0xBE, 0xEF, 0x42, 3]).freeAfterEcho.draw.1.setWidth 5 : Addr) = 4 ∧
      Free.drawList 5 (among 3 [0xA4, 0xDE, 0xAD, 0xBE, 0xEF, 0x42, 3]).freeAfterEcho.draw.2 =
        ([0xDE, 0xAD, 0xBE, 0xEF, 0x42], ⟨[3], 0⟩)) :=
  ⟨among_addressed 3 _ (by decide) (by decide), by decide, by decide, by decide, by decide⟩

/-- The contenders of V-REN-4, V-REN-3 or V-REN-5 as their first bytes are on the line. -/
def contending (f g : Vector Byte 5) : State :=
  { sys [] [] with
    slaves := [confirming 7 f, confirming 7 g]
    bus := { Bus.idle with inFlight := [(0, f[0]), (1, g[0])] } }

/-- V-REN-4: the second survives, the first does not. V-REN-5: both survive. -/
theorem witness_ContentionLeavesTheSurvivors :
    (contending #v[0xFF, 0xF0, 0x0F, 0xAA, 0x55] #v[0x0F, 0xF0, 0x0F, 0x0A, 0x55]).bus.inFlight =
      (contending #v[0xFF, 0xF0, 0x0F, 0xAA, 0x55] #v[0x0F, 0xF0, 0x0F, 0x0A, 0x55]).slaves.mapIdx
        (fun i sl => (i, sl.ctrlResp[0])) ∧
    (∀ sl ∈ (contending #v[0xFF, 0xF0, 0x0F, 0xAA, 0x55] #v[0x0F, 0xF0, 0x0F, 0x0A, 0x55]).slaves,
      sl.StartsConfirming Config.reference) ∧
    stillConfirming [[0xFF, 0xF0, 0x0F, 0xAA, 0x55, 0xA1], [0x0F, 0xF0, 0x0F, 0x0A, 0x55, 0xE8]] 6 =
      [[0x0F, 0xF0, 0x0F, 0x0A, 0x55, 0xE8]] ∧
    places (busTurns 6 (contending #v[0xFF, 0xF0, 0x0F, 0xAA, 0x55] #v[0x0F, 0xF0, 0x0F, 0x0A, 0x55])) =
      [(.waitBreak, 3, 3), (.waitBreak, 7, 7)] ∧
    stillConfirming [[0x10, 0x20, 0x30, 0x40, 0x50, 0x43], [0x10, 0x20, 0x30, 0x40, 0x50, 0x43]] 6 =
      [[0x10, 0x20, 0x30, 0x40, 0x50, 0x43], [0x10, 0x20, 0x30, 0x40, 0x50, 0x43]] := by decide +kernel

/-- V-REN-3 and V-REN-4. -/
theorem witness_AtMostOneOfTwoCommits :
    (contending #v[0xA7, 0x3C, 0x59, 0xE1, 0x0F] #v[0xB6, 0x3D, 0xD8, 0x71, 0x8E]).slaves =
      [confirming 7 #v[0xA7, 0x3C, 0x59, 0xE1, 0x0F], confirming 7 #v[0xB6, 0x3D, 0xD8, 0x71, 0x8E]] ∧
    (contending #v[0xA7, 0x3C, 0x59, 0xE1, 0x0F] #v[0xB6, 0x3D, 0xD8, 0x71, 0x8E]).bus.inFlight = [(0, 0xA7), (1, 0xB6)] ∧
    (confirming 7 #v[0xA7, 0x3C, 0x59, 0xE1, 0x0F]).StartsConfirming Config.reference ∧
    (confirming 7 #v[0xB6, 0x3D, 0xD8, 0x71, 0x8E]).StartsConfirming Config.reference ∧
    (confirming 7 #v[0xA7, 0x3C, 0x59, 0xE1, 0x0F]).ctrlResp ≠ (confirming 7 #v[0xB6, 0x3D, 0xD8, 0x71, 0x8E]).ctrlResp := by
  decide

/-! ## Witnesses: host operations -/

theorem witness_NotInitializedComesFirst :
    isPublicOp .autoConfig = true ∧ isPublicOp (.sendMessage 2 7 []) = true ∧
    State.reset.master.initialized = false := by decide

theorem witness_InitRegistersTheTransport : State.reset.master.autoPasses = none := by decide

/-- A system in which an AUTO_CONFIG has made this many passes, with this cap. -/
def midAuto (passes : Nat) (cap : Option Nat) (slaves : List SlaveConfig) : State :=
  let s := sys slaves []
  { s with
    params := { s.params with autocfgMaxPasses := cap }
    master := { s.master with autoPasses := some passes, mutexDepth := 1 } }

/-- P6's system whose entries are no longer declared. -/
def stale : State := after (exec (.defineDevices []) (p6 [] []))

/-- One case for each refusal; the boundary of MAX_PAYLOAD, of a buffer too small by one, and of a phase equal to the
period. -/
theorem witness_RefusalsAreByName :
    ((sys [] []).Ready ∧ (sys [] []).params.maxPayload < (List.replicate 256 (0 : Byte)).length) ∧
    ({ (sys [] []).params with maxPayload := 254 } : Params).maxPayload < (255 : Byte).toNat ∧
    ((declAt 0 0).addr = 0 ∧ (declAt 31 0).addr = 31 ∧ ¬([declAt 3 0, declAt 3 1].map Decl.addr).Nodup) ∧
    ((⟨2, 7, 0, 1, 1, 0⟩ : MirrorDef).slot = 7 ∧ ¬(⟨2, 0, 0, 1, 4, 4⟩ : MirrorDef).phase < 4) ∧
    ((upTo 1 (sys [] [])).Ready ∧ (∀ d ∈ [decl2], d.addr ≠ 0 ∧ d.addr ≠ 31) ∧ ([decl2].map Decl.addr).Nodup ∧
      ∃ d ∈ [decl2], ∃ slot ∈ d.slots.toList, (upTo 1 (sys [] [])).params.maxPayload < slot.len.toNat) ∧
    ((p6 [] []).Ready ∧ (1 : Byte) < ((p6 [] []).master.slotOf 2 0).len ∧ ((p6 [] []).master.decl 3).valid = false ∧
      ((p6 [] []).master.slotOf 2 2).used = false) ∧
    ((holding 1 (p6 [] [])).Ready ∧ (holding 1 (p6 [] [])).params.mirrorMax = some 1 ∧ 1 < defs6.length ∧
      ∀ d ∈ defs6, d.slot ≠ 7 ∧ d.phase < d.period ∧ ((holding 1 (p6 [] [])).master.decl d.addr).valid = true ∧
        ((holding 1 (p6 [] [])).master.slotOf d.addr d.slot).used = true ∧
        ((holding 1 (p6 [] [])).master.slotOf d.addr d.slot).len ≤ d.size) ∧
    (stale.Ready ∧ ∃ e ∈ stale.master.mirror, (stale.master.decl e.addr).valid = false) ∧
    ((midAuto 1 none []).master.initialized = true ∧ (midAuto 1 none []).master.autoPasses.isSome = true ∧
      isPublicOp .checkConfig = true) := by decide +kernel

/-- The longest payload, and the empty one; the five codes are those of V-SND-1 to V-SND-6 above. -/
theorem witness_SendMessageReturnsItsVerdict :
    (sys [at' 2] []).Ready ∧ (6 : MsgClass) ≠ 7 ∧ ([] : List Byte).length ≤ (sys [at' 2] []).params.maxPayload ∧
    (List.replicate 255 (0 : Byte)).length ≤ (sys [at' 2] []).params.maxPayload := by decide +kernel

/-- A silent address, for NO_RESPONSE, and a payload byte lost at the master, for TIMEOUT. -/
theorem witness_SendMessageReturnsItsVerdict_codes :
    (seen outcome (exec (.sendMessage 9 0 [0x01, 0x64]) (sys [at' 2] [])) =
      some (some .noResponse, [0xEE, 0x09, 0x6A, 0x01, 0x64, 0x82])) ∧
    (seen (·.master.result) (exec (.sendMessage 9 0 [0x01, 0x64])
        (noisy [.clean, .clean, .lostAtMaster] (sys [at' 2] []))) = some (some .timeout)) := by decide

theorem witness_ReceiveMessageReturnsItsVerdict :
    (sys [at' 2] []).Ready ∧ Memory.wf (sys [at' 2] []).mem = true ∧ (6 : MsgClass) ≠ 7 ∧
    (0 : Byte).toNat ≤ (sys [at' 2] []).params.maxPayload ∧
    (255 : Byte).toNat ≤ (sys [at' 2] []).params.maxPayload := by decide

theorem witness_SendCommandReturnsItsVerdict :
    (sys [at' 2] []).Ready ∧ Memory.wf (sys [at' 2] []).mem = true := by decide

theorem witness_DefineDevicesReplacesTheDirectory :
    (sys [] []).Ready ∧ (∀ d ∈ [declAt 1 0x1234, declAt 30 0x1234], d.addr ≠ 0 ∧ d.addr ≠ 31) ∧
    ([declAt 1 0x1234, declAt 30 0x1234].map Decl.addr).Nodup ∧
    (∀ d ∈ [declAt 1 0x1234, declAt 30 0x1234], d.addr ≠ 2) ∧
    ((upTo 2 (sys [] [])).Ready ∧
      ∀ d ∈ [decl2], ∀ slot ∈ d.slots.toList, slot.len.toNat ≤ (upTo 2 (sys [] [])).params.maxPayload) := by decide

/-- P6, with as many entries as a table of two holds. -/
theorem witness_DefineMirroringInstallsTheTable :
    (p6 [] []).Ready ∧
    (∀ d ∈ defs6, ((p6 [] []).master.decl d.addr).valid = true ∧ d.slot ≠ 7 ∧
      ((p6 [] []).master.slotOf d.addr d.slot).used = true ∧ 1 ≤ d.period ∧ d.phase < d.period ∧
      ((p6 [] []).master.slotOf d.addr d.slot).len ≤ d.size) ∧
    (p6 [] []).params.mirrorMax = none ∧ defs6.length ≤ 2 := by decide +kernel

theorem witness_MirrorTickMovesEveryTicker :
    (p6 [at' 2] []).Ready ∧ Memory.wf (p6 [at' 2] []).mem = true ∧
    (∀ e ∈ (p6 [at' 2] []).master.mirror, (p6 [at' 2] []).master.declares e.addr e.slot = true) ∧
    (∃ e ∈ (p6 [at' 2] []).master.mirror, e.ticker = e.phase) ∧
    (∃ e ∈ (p6 [at' 2] []).master.mirror, e.ticker ≠ e.phase) := by decide +kernel

theorem witness_MirrorEntryFiresOncePerPeriod :
    (p6 [at' 2] []).Ready ∧
    (∀ e ∈ (p6 [at' 2] []).master.mirror, (p6 [at' 2] []).master.declares e.addr e.slot = true ∧
      e.phase < e.period ∧ e.ticker = 0) := by decide +kernel

/-- P6's system, its slave unplugged or not, with both entries about to fire, the read one declared longer than its
buffer. -/
def bothFire (slaves : List SlaveConfig) : State :=
  { p6 slaves [0xAA] with
    master := { (p6 slaves [0xAA]).master with mirror := [⟨2, 0, 0x10, 2, 4, 1, 1⟩, ⟨2, 1, 0x20, 0, 2, 0, 0⟩] } }

/-- A write entry and a read entry that fire, without and with a failure. -/
theorem witness_MirrorTransferIsOneExchange :
    (∀ s ∈ [bothFire [at' 2], bothFire []], s.Ready ∧
      (∀ e ∈ s.master.mirror, s.master.declares e.addr e.slot = true ∧ e.slot ≠ 7 ∧ e.ticker = e.phase ∧
        (s.master.slotOf e.addr e.slot).len.toNat ≤ s.params.maxPayload)) ∧
    ((bothFire []).master.slotOf 2 0).dir = .m2s ∧ ((bothFire []).master.slotOf 2 1).dir = .s2m ∧
    (bothFire []).master.slotOf 2 1 = ⟨true, .s2m, 1⟩ ∧
    (transferAll (bothFire []).master.mirror (bothFire [])).map (·.1) =
      some [(2, some .noResponse), (2, some .noResponse)] ∧
    seen (·.master.result) (exec .mirrorTick (bothFire [])) = some (some .noResponse) := by decide +kernel

/-- For RenumIdTriesUntilOk: P4 (the first attempt is OK) and a lone master (none is). -/
theorem witness_RenumIdTriesUntilOk :
    (sys [at' 3] [0xDE, 0xAD, 0xBE, 0xEF, 0x42, 3]).Ready ∧
    attemptCode 3 7 0 (lockMutex (sys [at' 3] [0xDE, 0xAD, 0xBE, 0xEF, 0x42, 3])) = .ok ∧
    attemptCode 3 7 0 (lockMutex (sys [] [])) ≠ .ok := by decide +kernel

theorem witness_CheckConfigReportsADeclaredAddress :
    (sys [] []).Ready ∧ (∀ a : Addr, a ≠ 0 → a ≠ 31 → ((sys [] []).master.decl a).valid = false) ∧
    (after (exec (.defineDevices [declAt 3 0x1111]) (sys [] []))).Ready := by decide +kernel

/-- A system whose AUTO_CONFIG may make no pass. -/
def capped (slaves : List SlaveConfig) : State :=
  let s := sys slaves []
  { s with params := { s.params with autocfgMaxPasses := some 0 } }

/-- A cap of 0 too. V-AUT-5: a cap of 1, after its first pass; a call without a cap; a cap that leaves one more pass. -/
theorem witness_AutoConfigGoesOnPassByPass :
    (sys [] []).Ready ∧ (midAuto 1 none []).master.autoPasses = some 1 ∧
    (midAuto 1 (some 1) []).params.autocfgMaxPasses = some 1 ∧
    (step (midAuto 1 (some 1) []) = .next (finishAuto .passLimit
      { midAuto 1 (some 1) [] with master := { (midAuto 1 (some 1) []).master with autoPasses := some 2 } })) ∧
    (sys [] []).params.autocfgMaxPasses ≠ some 0 ∧
    (∀ m, (midAuto 1 (some 2) []).params.autocfgMaxPasses = some m → 1 < m) ∧
    ((capped []).Ready ∧ (capped []).params.autocfgMaxPasses = some 0) ∧
    ((midAuto 1 (some 2) []).master.setRes 3 .ok).resOf 3 = .ok ∧ ¬Usable 0 ∧ Usable 3 :=
  ⟨by decide, rfl, rfl, rfl, by decide, fun m h => by cases h; decide, by decide, by decide, by decide,
    by decide⟩

/-! ## Witnesses: silent and healthy networks -/

theorem witness_SilentAddressGivesNoResponse :
    (sys [at' 2] []).Ready ∧ (sys [at' 2] []).CleanBus ∧ CrcLaws (sys [at' 2] []).params ∧
    (sys [at' 2] []).params.breakEchoBytes = 1 ∧ (∀ sl ∈ (sys [at' 2] []).slaves, sl.ownAddr ≠ 9) ∧
    (List.replicate 255 (0 : Byte)).length ≤ (sys [at' 2] []).params.maxPayload :=
  ⟨by decide, by decide, reference_laws, by decide, by decide, by decide +kernel⟩

/-- The first payload byte, the CRC and the acknowledge can be hit. -/
theorem witness_HealthyWriteReturnsOk :
    (among 2 []).Ready ∧ (among 2 []).Addressed 1 (slaveAt 2) 2 ∧ (among 2 []).params.breakEchoBytes = 1 ∧
    (among 2 []).TimeFor 1 ∧ (slaveAt 2).dev.kind 0 = .receive 1 ∧ ([0x01, 0x64] : List Byte).length = 1 + 1 ∧
    ([0x01, 0x64] : List Byte).length ≤ (among 2 []).params.maxPayload ∧
    (0 ≤ ([0x01, 0x64] : List Byte).length ∧ 2 ≤ ([0x01, 0x64] : List Byte).length ∧ (1 : Byte) ≠ 0 ∧ (0xFF : Byte) ≠ 0) :=
  ⟨by decide, among_addressed 2 [] (by decide) (by decide), by decide, by decide, by decide, by decide, by decide,
    by decide⟩

theorem witness_HealthyReadFillsTheBuffer :
    (among 2 []).Ready ∧ (among 2 []).Addressed 1 (slaveAt 2) 2 ∧ Memory.wf (among 2 []).mem = true ∧
    (among 2 []).TimeFor (3 + 1) ∧ (slaveAt 2).dev.kind 3 = .transmit (3 : Byte).toNat ∧
    (slaveAt 2).dev.kind 2 = .transmit (0 : Byte).toNat ∧ (3 : Byte).toNat ≤ (among 2 []).params.maxPayload ∧
    (3 ≤ (3 : Byte).toNat ∧ 0 ≤ (0 : Byte).toNat ∧ (1 : Byte) ≠ 0) :=
  ⟨by decide, among_addressed 2 [] (by decide) (by decide), by decide, by decide, by decide, by decide, by decide,
    by decide⟩

/-- A system in which two slaves share the address 3, between two others; their fillers are those of P3b. -/
def shared : State := sys [at' 0, at' 3, at' 31, at' 3] [0xA7, 0x3C, 0x59, 0xE1, 0x0F, 0xB6, 0x3D, 0xD8, 0x71, 0x8E]

/-- One slave at the address, and two (P3b). -/
theorem witness_HealthyInquireReturnsTheIdentity :
    ((among 3 []).Ready ∧ (among 3 []).Addressed 1 (slaveAt 3) 3 ∧ Memory.wf (among 3 []).mem = true ∧
      (among 3 []).TimeFor 6) ∧
    (shared.Ready ∧ shared.CleanBus ∧ CrcLaws shared.params ∧ shared.params.breakEchoBytes = 1 ∧ shared.TimeFor 6 ∧
      shared.slaves[1]? = some (slaveAt 3) ∧ shared.slaves[3]? = some (slaveAt 3) ∧
      (∀ (i : Nat) (sl : Slave), shared.slaves[i]? = some sl → (sl.ownAddr = 3 ↔ i = 1 ∨ i = 3)) ∧
      Free.drawList 5 shared.freeAfterEcho =
        ([0xA7, 0x3C, 0x59, 0xE1, 0x0F], ⟨[0xB6, 0x3D, 0xD8, 0x71, 0x8E], 0⟩)) := by
  refine ⟨⟨by decide, among_addressed 3 [] (by decide) (by decide), by decide, by decide⟩,
    by decide, by decide, reference_laws, by decide, by decide, by decide, by decide, fun i sl hi => ?_, by decide⟩
  match i, hi with
  | 0, hi => exact (Option.some.inj hi).symm ▸ by decide
  | 1, hi => exact (Option.some.inj hi).symm ▸ by decide
  | 2, hi => exact (Option.some.inj hi).symm ▸ by decide
  | 3, hi => exact (Option.some.inj hi).symm ▸ by decide
  | _ + 4, hi => exact absurd hi (by simp [shared, sys, State.afterReset])

theorem witness_HealthyRenumberMovesTheSlave :
    (among 3 []).Ready ∧ (among 3 []).Addressed 1 (slaveAt 3) 3 ∧ (among 3 []).params.breakEchoBytes = 1 ∧
    (among 3 []).TimeToRenumber :=
  ⟨by decide, among_addressed 3 [] (by decide) (by decide), by decide, by decide⟩

/-- The system with a slave of type 0x1234 at 3 among others, with these declarations without slots. -/
def declared (ds : List (Addr × Word16)) : State :=
  let declare := fun (m : Master) (d : Addr × Word16) => m.setDecl d.1 ⟨true, d.2, Vector.replicate 8 ⟨false, .m2s, 0⟩⟩
  { among 3 [] with master := ds.foldl declare (among 3 []).master }

/-- The declared type agrees; it does not; it agrees and nobody lives at 30. -/
theorem witness_CheckConfigComparesTheType :
    ((declared [(3, 0x1234)]).Ready ∧ (declared [(3, 0x1234)]).CleanBus ∧ CrcLaws (declared [(3, 0x1234)]).params ∧
      (declared [(3, 0x1234)]).params.breakEchoBytes = 1 ∧ (declared [(3, 0x1234)]).TimeFor 6) ∧
    (∀ a : Addr, ((declared [(3, 0x1234)]).master.decl a).valid = true → a = 3) ∧
    (declared [(3, 0x1234)]).Agrees 3 ∧
    (∀ b : Addr, b < 3 → ((declared [(3, 0x1111)]).master.decl b).valid = false) ∧
    ((declared [(3, 0x1111)]).Addressed 1 (slaveAt 3) 3 ∧
      (slaveAt 3).devType ≠ ((declared [(3, 0x1111)]).master.decl 3).devType) ∧
    ((∀ b : Addr, b < 30 → ((declared [(3, 0x1234), (30, 0)]).master.decl b).valid = true → b = 3) ∧
      (declared [(3, 0x1234), (30, 0)]).Agrees 3 ∧
      ∀ sl ∈ (declared [(3, 0x1234), (30, 0)]).slaves, sl.ownAddr ≠ 30) :=
  ⟨⟨by decide, by decide, reference_laws, by decide, by decide⟩, by decide +kernel,
    ⟨1, slaveAt 3, among_addressed 3 [] (by decide) (by decide), by decide +kernel⟩, by decide +kernel,
    ⟨among_addressed 3 [] (by decide) (by decide), by decide +kernel⟩, by decide +kernel,
    ⟨1, slaveAt 3, among_addressed 3 [] (by decide) (by decide), by decide +kernel⟩, by decide⟩

theorem witness_AutoConfigOfAnEmptyNetwork :
    (sys [at' 0, at' 31] []).Ready ∧ (sys [at' 0, at' 31] []).CleanBus ∧ CrcLaws (sys [at' 0, at' 31] []).params ∧
    (∀ sl ∈ (sys [at' 0, at' 31] []).slaves, sl.ownAddr = 0 ∨ sl.ownAddr = 31) ∧
    (sys [at' 0, at' 31] []).params.autocfgMaxPasses ≠ some 0 :=
  ⟨by decide, by decide, reference_laws, by decide, by decide⟩

/-! ## Witnesses: the whole machine -/

theorem witness_RegistersBelongToTheirOperations :
    (nextOf (exec (.defineDevices [declAt 3 0]) (sys [] []))).isSome = true ∧
    (nextOf (exec (.data0 2 0x5B []) State.reset)).isSome = true ∧ (encode (.data0 2 0x5B [])).port = .wire ∧
    (encode .checkConfig).port = .host ∧ (encode (.splitHeader 0)).port = .codec := by decide +kernel

/-- A receive that changes the byte it stores. -/
theorem witness_MemoryBelongsToTheReceivers :
    Memory.wf (sys [at' 2] [0xAA]).mem = true ∧
    Memory.read (after (exec (.receiveMessage 2 1 1 0x20) (sys [at' 2] [0xAA]))).mem 0x20 ≠
      Memory.read (sys [at' 2] [0xAA]).mem 0x20 := by decide

/-- The system after reset, an initialised one, one in the middle of AUTO_CONFIG, and a contention. -/
theorem witness_StepKeepsTheSystemSound :
    State.reset.Inv ∧ (sys [at' 2] []).Inv ∧ (midAuto 1 none [at' 2]).Inv ∧
    (contending #v[1, 2, 3, 4, 5] #v[5, 4, 3, 2, 1]).Inv ∧
    (nextOf (step (sys [at' 2] []))).isSome = true := by
  refine ⟨?_, ?_, ?_, ?_, ?_⟩ <;> decide +kernel

theorem witness_IdentityNeverChanges :
    (nextOf (step (pending [.request ⟨.host, [7, 3, 7]⟩]))).isSome = true := by decide +kernel

end Sys2Proof.Tests
end

section
/-! SUPPORT. The zero residue of the CRC run (40 R147), from the zero law of the table (40 R142). -/

namespace Sys2Proof.Machine

/-- The zero law as the update sees it (40 R142): a running CRC that meets its own value goes to 0. -/
theorem crc8_self {p : Params} (laws : CrcLaws p) (r : Byte) : crc8 p r r = 0 := by
  obtain ⟨table_zero, -⟩ := laws
  calc crc8 p r r = crcTable p 0 := congrArg (crcTable p) BitVec.xor_self
    _ = 0 := table_zero

/-- A run over one more byte is one more update. -/
theorem crc8Over_concat (p : Params) (bytes : List Byte) (b r : Byte) :
    crc8Over p (bytes ++ [b]) r = crc8 p (crc8Over p bytes r) b :=
  crc8Over_append p bytes [b] r

/-- Settles O9: the trailing byte is the running CRC itself, and the update of a value by itself is 0. -/
theorem crcResidueIsZero : Obligations.CrcResidueIsZero := by
  intro p laws bytes r
  calc crc8Over p (bytes ++ [crc8Over p bytes r]) r
      = crc8 p (crc8Over p bytes r) (crc8Over p bytes r) := crc8Over_concat p bytes _ r
    _ = 0 := crc8_self laws _

end Sys2Proof.Machine
end

section
/-! SUPPORT. INIT outside an operation in progress (42 R181). -/

namespace Sys2Proof.Machine

theorem exec_init (mutex : Bool) (s : State) : exec (.init mutex) s = execInit mutex s := rfl

/-- The branch of INIT that completes: no AUTO_CONFIG is between two of its passes. -/
theorem execInit_of_idle (mutex : Bool) {s : State} (idle : s.master.autoPasses = none) :
    execInit mutex s =
      .next (report .ok (s.updMaster fun m => { m with transport := some ⟨mutex⟩, initialized := true })) := by
  have notBusy : ¬s.master.autoPasses.isSome := by simp [idle]
  exact if_neg notBusy

/-- Settles O35: INIT takes its completing branch, and the two updates of that branch reach three master registers only. -/
theorem initRegistersTheTransport : Obligations.InitRegistersTheTransport := by
  intro mutex s idle
  calc exec (.init mutex) s
      = execInit mutex s := exec_init mutex s
    _ = .next (report .ok (s.updMaster fun m => { m with transport := some ⟨mutex⟩, initialized := true })) :=
        execInit_of_idle mutex idle
    _ = .next { s with master := { s.master with transport := some ⟨mutex⟩, initialized := true, result := some .ok } } :=
        rfl

end Sys2Proof.Machine
end

section
/-! SUPPORT. BREAK at a slave (44 R262), one equation for each value of `S.tx_en`. -/

namespace Sys2Proof.Machine

theorem onEvent_brk (p : Params) (sl : Slave) (f : Free) : onEvent p .brk sl f = .quiet sl.onBreak f := rfl

/-- A slave that was transmitting also turns its signalling off, through the callback. -/
theorem onBreak_of_transmitting {sl : Slave} (on : sl.txEn = true) :
    sl.onBreak = { sl with
      st := .rxHeader, crc := Config.seed, idx := 0, txEn := false
      dev := { sl.dev with calls := .enableTransmitEmptySignal false :: sl.dev.calls } } := by
  unfold Slave.onBreak
  rw [if_pos on]
  rfl

/-- A slave that was not transmitting makes no callback. -/
theorem onBreak_of_silent {sl : Slave} (off : sl.txEn = false) :
    sl.onBreak = { sl with st := .rxHeader, crc := Config.seed, idx := 0 } := by
  have notOn : ¬sl.txEn = true := by simp [off]
  exact if_neg notOn

/-- Settles O16: the state is not looked at, only whether transmit-empty signalling was on. -/
theorem breakRestartsAnySlave : Obligations.BreakRestartsAnySlave := by
  intro p sl f
  rw [onEvent_brk]
  cases signalling : sl.txEn with
  | true => simp [onBreak_of_transmitting signalling, Reaction.quiet, Config.seed]
  | false => simp [onBreak_of_silent signalling, signalling, Reaction.quiet, Config.seed]

end Sys2Proof.Machine
end

section
/-! SUPPORT. The ignored cells of the table of the handlers (44 R281), one lemma per column. -/

namespace Sys2Proof.Machine

/-- RX where the slave waits for the next break or hears its own transmission (44 R263, R279). -/
theorem onRx_ignored (p : Params) (b : Byte) {sl : Slave} (f : Free)
    (deaf : sl.st = .waitBreak ∨ sl.st = .txAck ∨ sl.st = .txMsg ∨ sl.st = .txCtrlResp) :
    onRx p b sl f = .quiet sl f := by
  obtain waitBreak | txAck | txMsg | txCtrlResp := deaf
  · simp only [onRx, waitBreak]
  · simp only [onRx, txAck]
  · simp only [onRx, txMsg]
  · simp only [onRx, txCtrlResp]

/-- TXE where the slave is not transmitting by transmit-empty signals (44 R278). -/
theorem onTxe_ignored (p : Params) {sl : Slave} (f : Free) (notAck : sl.st ≠ .txAck) (notMsg : sl.st ≠ .txMsg)
    (notResp : sl.st ≠ .txCtrlResp) : onTxe p sl f = .quiet sl f := by
  cases st : sl.st with
  | txAck => exact absurd st notAck
  | txMsg => exact absurd st notMsg
  | txCtrlResp => exact absurd st notResp
  | _ => simp only [onTxe, st]

/-- TICK where no renumber timer runs (44 R280). -/
theorem onTick_ignored (p : Params) {sl : Slave} (f : Free) (notWaiting : sl.st ≠ .waitRenumTimer) :
    onTick p sl f = .quiet sl f := by
  cases st : sl.st with
  | waitRenumTimer => exact absurd st notWaiting
  | _ => simp only [onTick, st]

/-- Settles O17, one column of the table after the other. -/
theorem ignoredEventsChangeNothing : Obligations.IgnoredEventsChangeNothing := by
  intro p sl f b
  refine ⟨?rx, ?txe, ?tick⟩
  case rx => exact onRx_ignored p b f
  case txe => exact onTxe_ignored p f
  case tick => exact onTick_ignored p f

end Sys2Proof.Machine
end

section
/-! SUPPORT. Reset (70 R391 to R393): what the rules give of a slave, of the master and of the bus, and the system as the
three together. -/

namespace Sys2Proof.Machine

/-! ## A slave right after its reset (R391) -/

@[simp] theorem slaveAfterReset_st (c : SlaveConfig) : (Slave.afterReset c).st = .waitBreak := rfl
@[simp] theorem slaveAfterReset_ownAddr (c : SlaveConfig) : (Slave.afterReset c).ownAddr = c.eepromAddr := rfl
@[simp] theorem slaveAfterReset_eepromAddr (c : SlaveConfig) : (Slave.afterReset c).eepromAddr = c.eepromAddr := rfl
@[simp] theorem slaveAfterReset_txEn (c : SlaveConfig) : (Slave.afterReset c).txEn = false := rfl
@[simp] theorem slaveAfterReset_devType (c : SlaveConfig) : (Slave.afterReset c).devType = c.devType := rfl
@[simp] theorem slaveAfterReset_fwVer (c : SlaveConfig) : (Slave.afterReset c).fwVer = c.fwVer := rfl
@[simp] theorem slaveAfterReset_hwRev (c : SlaveConfig) : (Slave.afterReset c).hwRev = c.hwRev := rfl

/-- A slave reset in the middle of a frame ignores the rest of it. -/
theorem onEvent_rx_afterReset (p : Params) (b : Byte) (c : SlaveConfig) (f : Free) :
    onEvent p (.rx b) (Slave.afterReset c) f = .quiet (Slave.afterReset c) f :=
  onRx_ignored p b f (.inl (slaveAfterReset_st c))

/-! ## A slave reset at any time: it comes up with what it persisted and is configured with -/

theorem restart_eq_afterReset (sl : Slave) :
    sl.restart = Slave.afterReset ⟨sl.eepromAddr, sl.devType, sl.fwVer, sl.hwRev, sl.dev.catalog⟩ := rfl

/-! ## The master and the bus (R392, R393) -/

@[simp] theorem masterAfterReset_initialized (p : Params) : (Master.afterReset p).initialized = false := rfl
@[simp] theorem masterAfterReset_transport (p : Params) : (Master.afterReset p).transport = none := rfl
@[simp] theorem masterAfterReset_timeoutUs (p : Params) : (Master.afterReset p).timeoutUs = p.timeoutUs := rfl
@[simp] theorem masterAfterReset_mirror (p : Params) : (Master.afterReset p).mirror = [] := rfl

@[simp] theorem blank_valid : DirEntry.blank.valid = false := rfl

/-- Every entry of the directory is the undeclared one. -/
@[simp] theorem masterAfterReset_decl (p : Params) (a : Addr) : (Master.afterReset p).decl a = DirEntry.blank :=
  Vector.getElem_replicate _

@[simp] theorem busIdle_breakOn : Bus.idle.breakOn = false := rfl
@[simp] theorem busIdle_inFlight : Bus.idle.inFlight = [] := rfl

/-! ## The system -/

@[simp] theorem stateAfterReset_master (p : Params) (cs : List SlaveConfig) :
    (State.afterReset p cs).master = Master.afterReset p := rfl
@[simp] theorem stateAfterReset_slaves (p : Params) (cs : List SlaveConfig) :
    (State.afterReset p cs).slaves = cs.map Slave.afterReset := rfl
@[simp] theorem stateAfterReset_bus (p : Params) (cs : List SlaveConfig) : (State.afterReset p cs).bus = Bus.idle := rfl

theorem reset_eq_afterReset : State.reset = State.afterReset Config.reference [SlaveConfig.reference] := rfl

/-- The default of R9. -/
theorem reference_timeoutUs : Config.reference.timeoutUs = 1000000 := rfl

/-- Settles O8, agent by agent: `State.reset`, a slave reset at any time, then the master, the bus and the slaves of any
system after reset. -/
theorem systemAfterReset : Obligations.SystemAfterReset := by
  refine ⟨?defaultSystem, ?defaultTimeout, ?oneSlave, ?system⟩
  case defaultSystem => exact ⟨Config.reference, [SlaveConfig.reference], reset_eq_afterReset⟩
  case defaultTimeout =>
    rw [reset_eq_afterReset, stateAfterReset_master, masterAfterReset_timeoutUs, reference_timeoutUs]
  case oneSlave =>
    intro sl
    rw [restart_eq_afterReset]
    have deaf (p : Params) (b : Byte) (f : Free) := onEvent_rx_afterReset p b
      ⟨sl.eepromAddr, sl.devType, sl.fwVer, sl.hwRev, sl.dev.catalog⟩ f
    simpa [Reaction.quiet] using deaf
  case system =>
    intro p cs
    rw [stateAfterReset_master, stateAfterReset_bus, stateAfterReset_slaves, List.map_map]
    have undeclared (a : Addr) : ((Master.afterReset p).decl a).valid = false := by
      rw [masterAfterReset_decl, blank_valid]
    exact ⟨masterAfterReset_initialized p, masterAfterReset_transport p, masterAfterReset_timeoutUs p, undeclared,
      masterAfterReset_mirror p, busIdle_breakOn, busIdle_inFlight, by simp [Function.comp_def]⟩

end Sys2Proof.Machine
end

section
/-! SUPPORT. Reading and writing instructions (30_encoding, 41_frame_codec R160 to R162): the fields of a byte, then the items
of an operand list, then the three ports, each in both directions. -/

namespace Sys2Proof

/-! ## Fields of a byte -/

theorem headerClass_makeHeader (c : MsgClass) (a : Addr) : headerClass (makeHeader c a) = c :=
  Laws.FixedBits.class_of_header c a

theorem headerAddr_makeHeader : ∀ (c : MsgClass) (a : Addr), headerAddr (makeHeader c a) = a := by decide

theorem makeHeader_split : ∀ h : Byte, makeHeader (headerClass h) (headerAddr h) = h := by decide

/-- The two bytes of a word as numbers. -/
theorem word16_toNat (hi lo : Byte) : (word16 hi lo).toNat = hi.toNat * 256 + lo.toNat := by
  have hhi := hi.isLt
  have hlo := lo.isLt
  have shifted : hi.toNat <<< 8 % 65536 = hi.toNat <<< 8 := Nat.mod_eq_of_lt (by rw [Nat.shiftLeft_eq]; omega)
  simp only [word16, BitVec.toNat_or, BitVec.toNat_shiftLeft, BitVec.toNat_setWidth]
  rw [Nat.mod_eq_of_lt (a := hi.toNat) (by omega), Nat.mod_eq_of_lt (a := lo.toNat) (by omega)]
  rw [shifted, ← Nat.shiftLeft_add_eq_or_of_lt hlo, Nat.shiftLeft_eq]

theorem hiByte_toNat (w : Word16) : (hiByte w).toNat = w.toNat / 256 := by
  have hw := w.isLt
  simp only [hiByte, BitVec.extractLsb'_toNat, Nat.shiftRight_eq_div_pow]
  omega

theorem loByte_toNat (w : Word16) : (loByte w).toNat = w.toNat % 256 := by
  simp [loByte, BitVec.extractLsb'_toNat]

@[simp] theorem word16_bytes (w : Word16) : word16 (hiByte w) (loByte w) = w := by
  apply BitVec.eq_of_toNat_eq
  rw [word16_toNat, hiByte_toNat, loByte_toNat]
  omega

@[simp] theorem hiByte_word16 (hi lo : Byte) : hiByte (word16 hi lo) = hi := by
  have hlo := lo.isLt
  apply BitVec.eq_of_toNat_eq
  rw [hiByte_toNat, word16_toNat]
  omega

@[simp] theorem loByte_word16 (hi lo : Byte) : loByte (word16 hi lo) = lo := by
  have hlo := lo.isLt
  apply BitVec.eq_of_toNat_eq
  rw [loByte_toNat, word16_toNat]
  omega

/-- A byte reads as an address exactly if it is that address, its upper bits 0. -/
theorem addrOf_eq_ok {b : Byte} {a : Addr} : addrOf b = .ok a ↔ a.setWidth 8 = b := by
  revert b a; decide +kernel

theorem classOf_eq_ok {b : Byte} {c : MsgClass} : classOf b = .ok c ↔ c.setWidth 8 = b := by
  revert b c; decide +kernel

theorem flagOf_eq_ok {b : Byte} {m : Bool} : flagOf b = .ok m ↔ (if m then 1 else 0) = b := by
  revert b m; decide +kernel

/-- A flags byte and a length byte read as a slot exactly if they are its encoding. -/
theorem slotOf_eq_ok {f len : Byte} {s : Slot} : slotOf f len = .ok s ↔ encodeSlot s = [f, len] := by
  obtain ⟨used, dir, l⟩ := s
  have flags : ∀ (f : Byte) (used : Bool) (dir : Dir),
      (f < 4 ∧ f.getLsbD 0 = used ∧ (if f.getLsbD 1 then Dir.s2m else .m2s) = dir) ↔
        (if used then 1 else 0 : Byte) ||| (if dir = .s2m then 2 else 0) = f := by
    intro f used dir
    revert f used
    cases dir <;> decide +kernel
  have written : encodeSlot ⟨used, dir, l⟩ = [f, len] ↔ (f < 4 ∧ f.getLsbD 0 = used ∧
      (if f.getLsbD 1 then Dir.s2m else .m2s) = dir) ∧ len = l := by
    simp only [encodeSlot, List.cons.injEq, and_true, flags, eq_comm (a := len)]
  rw [written]
  by_cases inField : f < 4
  · rw [slotOf, if_pos inField]; simp only [inField, Except.ok.injEq, Slot.mk.injEq, true_and, and_assoc]
  · rw [slotOf, if_neg inField]; simp only [inField, reduceCtorEq, false_and]

theorem addrOf_setWidth (a : Addr) : addrOf (a.setWidth 8) = .ok a := addrOf_eq_ok.2 rfl

theorem classOf_setWidth (c : MsgClass) : classOf (c.setWidth 8) = .ok c := classOf_eq_ok.2 rfl

/-! ## Vectors of bytes and slots -/

/-- Four places hold four values. -/
theorem vector_four {α : Type} (v : Vector α 4) : v = #v[v[0], v[1], v[2], v[3]] := by
  ext i hi; interval_cases i <;> rfl

theorem vector_three {α : Type} (v : Vector α 3) : v = #v[v[0], v[1], v[2]] := by
  ext i hi; interval_cases i <;> rfl

theorem vector_five {α : Type} (v : Vector α 5) : v = #v[v[0], v[1], v[2], v[3], v[4]] := by
  ext i hi; interval_cases i <;> rfl

theorem vector_eight {α : Type} (v : Vector α 8) : v = #v[v[0], v[1], v[2], v[3], v[4], v[5], v[6], v[7]] := by
  ext i hi; interval_cases i <;> rfl

/-! ## Readers, one after another -/

/-- A reader that goes on after another succeeds exactly if both do. -/
theorem bind_eq_ok {α β : Type} {x : Except DecodeError α} {f : α → Except DecodeError β} {b : β} :
    (x >>= f) = .ok b ↔ ∃ a, x = .ok a ∧ f a = .ok b := by
  cases x <;> simp [bind, Except.bind]

theorem map_eq_ok {α β : Type} {x : Except DecodeError α} {f : α → β} {b : β} :
    x.map f = .ok b ↔ ∃ a, x = .ok a ∧ f a = b := by
  cases x <;> simp [Except.map]

/-! ## Items of an operand list -/

/-- A reader of items and their writer agree: the reader takes exactly what the writer wrote and leaves the rest. -/
structure ReadsBack {α : Type} (take : List Byte → Except DecodeError (α × List Byte)) (put : α → List Byte) : Prop where
  read_put : ∀ x rest, take (put x ++ rest) = .ok (x, rest)
  put_read : ∀ bs x rest, take bs = .ok (x, rest) → put x ++ rest = bs
  put_ne : ∀ x, put x ≠ []

/-- A list of items is read back, given fuel for each. -/
theorem takeAll_flatMap {α : Type} {take : List Byte → Except DecodeError (α × List Byte)} {put : α → List Byte}
    (agree : ReadsBack take put) : ∀ (xs : List α) (fuel : Nat), xs.length ≤ fuel →
      takeAll take fuel (xs.flatMap put) = .ok xs
  | [], fuel, _ => by cases fuel <;> rfl
  | x :: xs, 0, h => by simp at h
  | x :: xs, fuel + 1, h => by
    obtain ⟨b, bs, nonempty⟩ := List.exists_cons_of_ne_nil (agree.put_ne x)
    have rest := takeAll_flatMap agree xs fuel (by simpa using h)
    have first := agree.read_put x (xs.flatMap put)
    rw [List.flatMap_cons]
    rw [nonempty, List.cons_append] at first ⊢
    simp [takeAll, first, rest, bind, Except.bind]

/-- What reads as a list of items is the list written out. -/
theorem flatMap_of_takeAll {α : Type} {take : List Byte → Except DecodeError (α × List Byte)} {put : α → List Byte}
    (agree : ReadsBack take put) : ∀ (fuel : Nat) (bs : List Byte) (xs : List α),
      takeAll take fuel bs = .ok xs → xs.flatMap put = bs
  | 0, [], xs, h => by simp_all [takeAll]
  | 0, _ :: _, xs, h => by simp [takeAll] at h
  | _ + 1, [], xs, h => by simp_all [takeAll]
  | fuel + 1, b :: bs, xs, h => by
    simp only [takeAll, bind_eq_ok, Except.ok.injEq] at h
    obtain ⟨⟨x, tail⟩, first, xs', rest, rfl⟩ := h
    rw [List.flatMap_cons, flatMap_of_takeAll agree fuel _ _ rest]
    exact agree.put_read _ _ _ first

/-- No more items than bytes. -/
theorem length_le_flatMap {α : Type} {put : α → List Byte} (put_ne : ∀ x, put x ≠ []) :
    ∀ xs : List α, xs.length ≤ (xs.flatMap put).length
  | [] => Nat.zero_le _
  | x :: xs => by
    have one := List.length_pos_iff.2 (put_ne x)
    have rest := length_le_flatMap put_ne xs
    simp only [List.flatMap_cons, List.length_append, List.length_cons]
    omega

theorem takeSlot_reads : ReadsBack takeSlot encodeSlot where
  read_put s rest := by
    have back : ∀ f len, encodeSlot s = [f, len] → takeSlot (f :: len :: rest) = .ok (s, rest) := fun f len h => by
      rw [takeSlot, slotOf_eq_ok.2 h]; rfl
    exact back _ _ rfl
  put_read bs s rest h := by
    match bs, h with
    | f :: len :: tail, h =>
      simp only [takeSlot, map_eq_ok, Prod.mk.injEq] at h
      obtain ⟨s', read, rfl, rfl⟩ := h
      rw [slotOf_eq_ok.1 read]; rfl
  put_ne _ := by simp [encodeSlot]

theorem takeMirrorDef_reads : ReadsBack takeMirrorDef encodeMirrorDef where
  read_put d rest := by
    simp [encodeMirrorDef, takeMirrorDef, addrOf_setWidth, classOf_setWidth, bind, Except.bind]
  put_read bs d rest h := by
    match bs, h with
    | a :: s :: bh :: bl :: size :: ph :: pl :: fh :: fl :: tail, h =>
      simp only [takeMirrorDef, bind_eq_ok, Except.ok.injEq, Prod.mk.injEq] at h
      obtain ⟨a', readAddr, c', readClass, rfl, rfl⟩ := h
      simp [encodeMirrorDef, addrOf_eq_ok.1 readAddr, classOf_eq_ok.1 readClass]
  put_ne _ := by simp [encodeMirrorDef]

/-- The bytes of a declaration, slot by slot. -/
theorem encodeDecl_append (a : Addr) (t : Word16) (s0 s1 s2 s3 s4 s5 s6 s7 : Slot) (rest : List Byte) :
    encodeDecl ⟨a, t, #v[s0, s1, s2, s3, s4, s5, s6, s7]⟩ ++ rest =
      a.setWidth 8 :: hiByte t :: loByte t :: (encodeSlot s0 ++ (encodeSlot s1 ++ (encodeSlot s2 ++ (encodeSlot s3 ++
        (encodeSlot s4 ++ (encodeSlot s5 ++ (encodeSlot s6 ++ (encodeSlot s7 ++ rest)))))))) := by
  simp [encodeDecl, List.flatMap_cons]

theorem takeDecl_reads : ReadsBack takeDecl encodeDecl where
  read_put d rest := by
    obtain ⟨a, t, slots⟩ := d
    rw [vector_eight slots, encodeDecl_append]
    simp [takeDecl, addrOf_setWidth, takeSlot_reads.read_put, bind, Except.bind]
  put_read bs d rest h := by
    match bs, h with
    | a :: th :: tl :: tail, h =>
      simp only [takeDecl, bind_eq_ok, Except.ok.injEq, Prod.mk.injEq] at h
      obtain ⟨a', readAddr, ⟨s0, _⟩, h0, ⟨s1, _⟩, h1, ⟨s2, _⟩, h2, ⟨s3, _⟩, h3, ⟨s4, _⟩, h4, ⟨s5, _⟩, h5,
        ⟨s6, _⟩, h6, ⟨s7, _⟩, h7, rfl, rfl⟩ := h
      have written := takeSlot_reads.put_read
      rw [encodeDecl_append, addrOf_eq_ok.1 readAddr, hiByte_word16, loByte_word16, written _ _ _ h7, written _ _ _ h6,
        written _ _ _ h5, written _ _ _ h4, written _ _ _ h3, written _ _ _ h2, written _ _ _ h1, written _ _ _ h0]
  put_ne _ := by simp [encodeDecl]

end Sys2Proof
end

section
/-! SUPPORT. The three ports read back what the encoder writes and write back what they read (30_encoding R114, R115; log 11),
and the fetch (log 20). -/

namespace Sys2Proof

/-! ## The wire (R114) -/

theorem parseWire_data {c : MsgClass} (notCmd : c ≠ Config.cmdClass) (a : Addr) (hcrc : Byte) (body : List Byte) :
    parse (encodeData c a hcrc body) = dataOf c a hcrc body := by
  simp [parse, encodeData, parseWire, headerClass_makeHeader, headerAddr_makeHeader, notCmd]

theorem parseWire_command (a : Addr) (hcrc r0 r1 r2 r3 r4 crc : Byte) :
    parse (encodeCmd a hcrc r0 [r1, r2, r3, r4] crc) = .ok (commandOf a hcrc r0 r1 r2 r3 r4 crc) := by
  simp [parse, encodeCmd, parseWire, headerClass_makeHeader, headerAddr_makeHeader]

/-- A command frame whose four bytes after the first are given as a vector. -/
theorem parseWire_args (a : Addr) (hcrc sub : Byte) (args : Vector Byte 4) (crc : Byte) :
    parse (encodeCmd a hcrc sub args.toList crc) =
      .ok (commandOf a hcrc sub args[0] args[1] args[2] args[3] crc) := by
  have listed : args.toList = [args[0], args[1], args[2], args[3]] := congrArg Vector.toList (vector_four args)
  rw [listed, parseWire_command]

/-- A sub-command that R112 reserves is none of the three defined ones. -/
theorem commandOf_reserved (a : Addr) (hcrc r0 r1 r2 r3 r4 crc : Byte) (reserved : ¬r0 < 3) :
    commandOf a hcrc r0 r1 r2 r3 r4 crc = .cmdReserved a hcrc r0 #v[r1, r2, r3, r4] crc := by
  have h0 : r0 ≠ Config.subProbe := by rintro rfl; exact reserved (by decide)
  have h1 : r0 ≠ Config.subRenum := by rintro rfl; exact reserved (by decide)
  have h2 : r0 ≠ Config.subInquire := by rintro rfl; exact reserved (by decide)
  rw [commandOf, if_neg h0, if_neg h1, if_neg h2]

theorem encode_commandOf (a : Addr) (hcrc r0 r1 r2 r3 r4 crc : Byte) :
    encode (commandOf a hcrc r0 r1 r2 r3 r4 crc) = encodeCmd a hcrc r0 [r1, r2, r3, r4] crc := by
  unfold commandOf
  split
  · simp [encode, *]
  · split
    · simp [encode, *]
    · split <;> simp [encode, *]

theorem encode_of_dataOf {c : MsgClass} {a : Addr} {hcrc : Byte} {body : List Byte} {i : Instr}
    (h : dataOf c a hcrc body = .ok i) : encode i = encodeData c a hcrc body := by
  have named : ∀ n : Nat, c.toNat = n → c = BitVec.ofNat 3 n := fun n hn => by
    rw [← hn, BitVec.ofNat_toNat, BitVec.setWidth_eq]
  unfold dataOf at h
  split at h
  case h_8 => cases h
  all_goals
    rename_i hc
    cases h
    rw [named _ hc]
    rfl

theorem encode_of_parseWire {bs : List Byte} {i : Instr} (h : parseWire bs = .ok i) : encode i = ⟨.wire, bs⟩ := by
  unfold parseWire at h
  split at h
  case h_2 => cases h
  case h_1 hd hcrc body =>
    have header := makeHeader_split hd
    split at h
    case isFalse => rw [encode_of_dataOf h, encodeData, header]
    case isTrue isCmd =>
      rw [isCmd] at header
      split at h
      · cases h
        rw [encode_commandOf, encodeCmd, header]
        rfl
      · cases h

/-! ## The host's port (R115) -/

theorem encode_of_takeNothing {j i : Instr} {bs : List Byte} (h : takeNothing j bs = .ok i) : i = j ∧ bs = [] := by
  cases bs with
  | nil => cases h; exact ⟨rfl, rfl⟩
  | cons => cases h

/-- A host call's operands are what its encoding writes behind the selector. -/
theorem encode_of_parseHostOp {op : Byte} {rest : List Byte} {i : Instr} (h : parseHostOp op.toNat rest = .ok i) :
    encode i = ⟨.host, op :: rest⟩ := by
  have named : ∀ n : Nat, op.toNat = n → op = BitVec.ofNat 8 n := fun n hn => by
    rw [← hn, BitVec.ofNat_toNat, BitVec.setWidth_eq]
  unfold parseHostOp at h
  split at h
  case h_17 => cases h
  all_goals
    rename_i selector
    rw [named _ selector]
    clear selector named
  case h_1 =>
    unfold takeInit at h
    split at h
    · obtain ⟨m, read, rfl⟩ := map_eq_ok.1 h
      rw [← flagOf_eq_ok.1 read]; rfl
    · cases h
  case h_2 =>
    unfold takeSendMessage at h
    split at h
    · simp only [bind_eq_ok, Except.ok.injEq] at h
      obtain ⟨a, ha, c, hc, rfl⟩ := h
      rw [← addrOf_eq_ok.1 ha, ← classOf_eq_ok.1 hc]; rfl
    · cases h
  case h_3 =>
    unfold takeReceiveMessage at h
    split at h
    · simp only [bind_eq_ok, Except.ok.injEq] at h
      obtain ⟨a, ha, c, hc, rfl⟩ := h
      simp [encode, addrOf_eq_ok.1 ha, classOf_eq_ok.1 hc]
    · cases h
  case h_4 =>
    unfold takeSendCmdMessage at h
    split at h
    · simp only [bind_eq_ok, Except.ok.injEq] at h
      obtain ⟨a, ha, rfl⟩ := h
      simp [encode, addrOf_eq_ok.1 ha]
    · cases h
  case h_5 =>
    obtain ⟨ds, read, rfl⟩ := map_eq_ok.1 h
    rw [← flatMap_of_takeAll takeDecl_reads _ _ _ read]; rfl
  case h_6 =>
    obtain ⟨ds, read, rfl⟩ := map_eq_ok.1 h
    rw [← flatMap_of_takeAll takeMirrorDef_reads _ _ _ read]; rfl
  case h_8 =>
    unfold takeRenumId at h
    split at h
    · simp only [bind_eq_ok, Except.ok.injEq] at h
      obtain ⟨a, ha, c, hc, rfl⟩ := h
      rw [← addrOf_eq_ok.1 ha, ← addrOf_eq_ok.1 hc]; rfl
    · cases h
  all_goals
    obtain ⟨rfl, rfl⟩ := encode_of_takeNothing h
    rfl

/-! ## The codec port (log 11) -/

theorem five_eq_ok {bs : List Byte} {v : Vector Byte 5} : five bs = .ok v ↔ v.toList = bs := by
  constructor
  · intro h
    unfold five at h
    split at h <;> cases h
    rfl
  · rintro rfl
    rw [vector_five v]
    rfl

/-- A codec call's operands are what its encoding writes behind the selector. -/
theorem encode_of_parseCodecOp {op : Byte} {rest : List Byte} {i : Instr} (h : parseCodecOp op.toNat rest = .ok i) :
    encode i = ⟨.codec, op :: rest⟩ := by
  have named : ∀ n : Nat, op.toNat = n → op = BitVec.ofNat 8 n := fun n hn => by
    rw [← hn, BitVec.ofNat_toNat, BitVec.setWidth_eq]
  unfold parseCodecOp at h
  split at h
  case h_11 => cases h
  all_goals
    rename_i selector
    rw [named _ selector]
    clear selector named
  case h_1 => unfold takeCrc8 at h; split at h <;> cases h; rfl
  case h_2 => unfold takeCrc8Over at h; split at h <;> cases h; rfl
  case h_3 =>
    unfold takeMakeHeader at h
    split at h
    · simp only [bind_eq_ok, Except.ok.injEq] at h
      obtain ⟨c, hc, a, ha, rfl⟩ := h
      rw [← classOf_eq_ok.1 hc, ← addrOf_eq_ok.1 ha]; rfl
    · cases h
  case h_4 => unfold takeHeader at h; split at h <;> cases h; rfl
  case h_5 => unfold takeHeader at h; split at h <;> cases h; rfl
  case h_6 =>
    unfold takeBuildWriteFrame at h
    split at h
    · simp only [bind_eq_ok, Except.ok.injEq] at h
      obtain ⟨a, ha, c, hc, rfl⟩ := h
      rw [← addrOf_eq_ok.1 ha, ← classOf_eq_ok.1 hc]; rfl
    · cases h
  case h_7 =>
    unfold takeBuildReadRequest at h
    split at h
    · simp only [bind_eq_ok, Except.ok.injEq] at h
      obtain ⟨a, ha, c, hc, rfl⟩ := h
      rw [← addrOf_eq_ok.1 ha, ← classOf_eq_ok.1 hc]; rfl
    · cases h
  case h_8 =>
    unfold takeBuildCmdFrame at h
    split at h
    · simp only [bind_eq_ok, Except.ok.injEq] at h
      obtain ⟨a, ha, v, hv, rfl⟩ := h
      rw [← addrOf_eq_ok.1 ha, ← five_eq_ok.1 hv]; rfl
    · cases h
  case h_9 => cases h; rfl
  case h_10 =>
    obtain ⟨v, hv, rfl⟩ := map_eq_ok.1 h
    rw [← five_eq_ok.1 hv]; rfl

/-! ## All ports -/

/-- Whatever bytes parse to is encoded by these bytes. -/
theorem encode_of_parse {r : Request} {i : Instr} (h : parse r = .ok i) : encode i = r := by
  obtain ⟨port, bytes⟩ := r
  cases port with
  | wire => exact encode_of_parseWire h
  | host =>
    cases bytes with
    | nil => cases h
    | cons op rest => exact encode_of_parseHostOp h
  | codec =>
    cases bytes with
    | nil => cases h
    | cons op rest => exact encode_of_parseCodecOp h

/-- Every instruction but a reserved command with a defined sub-command is parsed back from its encoding. -/
theorem parse_encode {i : Instr} (wf : checkInstr i = none) : parse (encode i) = .ok i := by
  cases i with
  | cmdProbe a hcrc args crc =>
    exact (parseWire_args a hcrc Config.subProbe args crc).trans (by rw [commandOf, if_pos rfl, ← vector_four args])
  | cmdRenum a hcrc newAddr args crc =>
    have listed : args.toList = [args[0], args[1], args[2]] := congrArg Vector.toList (vector_three args)
    rw [encode, listed, parseWire_command, commandOf, if_neg (by decide), if_pos rfl, ← vector_three args]
  | cmdInquire a hcrc args crc =>
    refine (parseWire_args a hcrc Config.subInquire args crc).trans ?_
    rw [commandOf, if_neg (by decide), if_neg (by decide), if_pos rfl, ← vector_four args]
  | cmdReserved a hcrc sub args crc =>
    have reserved : ¬sub < 3 := fun low => by rw [checkInstr, if_pos low] at wf; cases wf
    exact (parseWire_args a hcrc sub args crc).trans (by rw [commandOf_reserved _ _ _ _ _ _ _ _ reserved, ← vector_four args])
  | init mutex => cases mutex <;> rfl
  | sendMessage a c payload =>
    simp [encode, parse, parseHost, parseHostOp, takeSendMessage, addrOf_setWidth, classOf_setWidth, bind, Except.bind]
  | receiveMessage a c len buf =>
    simp [encode, parse, parseHost, parseHostOp, takeReceiveMessage, addrOf_setWidth, classOf_setWidth, bind, Except.bind]
  | sendCmdMessage a request out =>
    have listed : request.toList = [request[0], request[1], request[2], request[3], request[4]] :=
      congrArg Vector.toList (vector_five request)
    simp [encode, listed, parse, parseHost, parseHostOp, takeSendCmdMessage, addrOf_setWidth, bind, Except.bind,
      ← vector_five request]
  | defineDevices decls =>
    exact map_eq_ok.2 ⟨decls, takeAll_flatMap takeDecl_reads decls _ (length_le_flatMap takeDecl_reads.put_ne decls), rfl⟩
  | defineMirroring defs =>
    exact map_eq_ok.2 ⟨defs, takeAll_flatMap takeMirrorDef_reads defs _
      (length_le_flatMap takeMirrorDef_reads.put_ne defs), rfl⟩
  | renumId old new =>
    simp [encode, parse, parseHost, parseHostOp, takeRenumId, addrOf_setWidth, bind, Except.bind]
  | makeHeader c a =>
    simp [encode, parse, parseCodec, parseCodecOp, takeMakeHeader, addrOf_setWidth, classOf_setWidth, bind, Except.bind]
  | buildWriteFrame a c payload =>
    simp [encode, parse, parseCodec, parseCodecOp, takeBuildWriteFrame, addrOf_setWidth, classOf_setWidth, bind, Except.bind]
  | buildReadRequest a c =>
    simp [encode, parse, parseCodec, parseCodecOp, takeBuildReadRequest, addrOf_setWidth, classOf_setWidth, bind, Except.bind]
  | buildCmdFrame a request =>
    simp [encode, parse, parseCodec, parseCodecOp, takeBuildCmdFrame, addrOf_setWidth, five_eq_ok.2 (rfl : request.toList = _),
      bind, Except.bind]
  | decodeInquire resp =>
    simp [encode, parse, parseCodec, parseCodecOp, five_eq_ok.2 (rfl : resp.toList = _), Except.map]
  | data0 a hcrc body => exact parseWire_data (by decide) a hcrc body
  | data1 a hcrc body => exact parseWire_data (by decide) a hcrc body
  | data2 a hcrc body => exact parseWire_data (by decide) a hcrc body
  | data3 a hcrc body => exact parseWire_data (by decide) a hcrc body
  | data4 a hcrc body => exact parseWire_data (by decide) a hcrc body
  | data5 a hcrc body => exact parseWire_data (by decide) a hcrc body
  | data6 a hcrc body => exact parseWire_data (by decide) a hcrc body
  | mirrorTick | checkConfig | autoConfig | opReserved10 | opReserved11 | opReserved12 | opReserved13 | opReserved14
  | opReserved15 | crc8 | crc8Over | splitHeader | headerCrc | payloadOk => rfl

theorem wellFormed_iff {i : Instr} : wellFormed i = true ↔ checkInstr i = none := Option.isNone_iff_eq_none

/-- The decoder answers an instruction exactly if the bytes parse to it and it is well formed. -/
theorem decode_eq_ok {r : Request} {i : Instr} : decode r = .ok i ↔ parse r = .ok i ∧ wellFormed i = true := by
  rw [wellFormed_iff]
  unfold decode
  cases parsed : parse r with
  | error e => simp
  | ok j =>
    cases checked : checkInstr j <;> simp only [accept, checked, Except.ok.injEq, reduceCtorEq, false_iff, not_and]
    · exact ⟨fun h => ⟨h, h ▸ checked⟩, And.left⟩
    · rintro rfl; simp [checked]

/-- Settles O1: the parser reads back what the encoder writes, and a well-formed instruction is accepted. -/
theorem decodeUndoesEncode : Obligations.DecodeUndoesEncode := by
  intro i wf
  exact decode_eq_ok.2 ⟨parse_encode (wellFormed_iff.1 wf), wf⟩

/-- Settles O2: the parser's inverse at each port. -/
theorem encodeUndoesDecode : Obligations.EncodeUndoesDecode := by
  intro r i decoded
  exact encode_of_parse (decode_eq_ok.1 decoded).1

/-- Settles O3, word by word. -/
theorem handWrittenWordsDecode : Obligations.HandWrittenWordsDecode := by
  unfold Obligations.HandWrittenWordsDecode
  decide +kernel

namespace Machine

/-! ## The fetch (log 20) -/

/-- With no operation in progress the oldest input is taken. -/
theorem step_input {s : State} {i : Input} {rest : List Input} (idle : s.master.autoPasses = none)
    (first : s.inputs = i :: rest) : step s = takeInput i { s with inputs := rest } := by
  simp [step, idle, first]

/-- A request runs what its bytes parse to. -/
theorem step_request {s : State} {r : Request} {rest : List Input} (idle : s.master.autoPasses = none)
    (first : s.inputs = .request r :: rest) : step s = runRequest r { s with inputs := rest } :=
  step_input idle first

theorem runRequest_of_parse {r : Request} {i : Instr} (s : State) (h : parse r = .ok i) : runRequest r s = exec i s := by
  simp [runRequest, h]

theorem runRequest_of_error {r : Request} {e : DecodeError} (s : State) (h : parse r = .error e) :
    runRequest r s = runRaw r e s := by
  simp [runRequest, h]

/-- A table word that decodes is fetched as the request it stands for, which decodes to the same instruction. -/
theorem decode_requestOfWord {nbits w : Nat} {i : Instr} (h : decodeTableWord nbits w = some i) :
    decode (requestOfWord nbits w) = .ok i := by
  unfold decodeTableWord at h
  unfold requestOfWord
  split at h
  case h_2 => cases h
  case h_1 r stands =>
    rw [stands, Option.getD_some]
    split at h
    · cases h; assumption
    · cases h

/-- Settles O4: the three ways a request is fetched, then the placed word as one of them. -/
theorem stepRunsDecodedInstruction : Obligations.StepRunsDecodedInstruction := by
  refine ⟨?decoded, ?parsed, ?word⟩
  case decoded =>
    intro s r rest i idle first decoded
    obtain ⟨parsed, wf⟩ := decode_eq_ok.1 decoded
    exact ⟨wf, (step_request idle first).trans (runRequest_of_parse _ parsed)⟩
  case parsed =>
    intro s r rest idle first
    rw [step_request idle first]
    refine ⟨fun i parsed => runRequest_of_parse _ parsed, fun e bad onWire => ?_, fun e bad offWire => ?_⟩
    · rw [runRequest_of_error _ bad, runRaw, onWire]
    · rw [runRequest_of_error _ bad, runRaw]
      cases port : r.port with
      | wire => exact absurd port offWire
      | host => rfl
      | codec => rfl
  case word =>
    intro s nbits w i decoded
    obtain ⟨parsed, -⟩ := decode_eq_ok.1 (decode_requestOfWord decoded)
    rw [State.withFetchWord, step_request (placeRequest_master _ _ ▸ rfl) (placeRequest_inputs _ _),
      runRequest_of_parse _ parsed]
    rfl

end Machine

end Sys2Proof
end

section
/-! SUPPORT. The CRC check as an equality test, what it detects (40 R147 to R149), and the frames the codec builds (41). -/

namespace Sys2Proof.Machine

/-! ## The check -/

/-- The permutation law as the update sees it (40 R143): from one running CRC, different bytes go to different values. -/
theorem crc8_injective {p : Params} (laws : CrcLaws p) {r a b : Byte} (same : crc8 p r a = crc8 p r b) : a = b := by
  obtain ⟨-, permutes⟩ := laws
  exact (BitVec.xor_right_inj _).1 (permutes _ _ same)

/-- One byte applied to different running CRCs keeps them apart. -/
theorem crc8_injective_left {p : Params} (laws : CrcLaws p) {r q b : Byte} (same : crc8 p r b = crc8 p q b) : r = q := by
  obtain ⟨-, permutes⟩ := laws
  exact (BitVec.xor_left_inj _).1 (permutes _ _ same)

/-- The check byte by byte (40 R148). -/
theorem crc8_eq_zero_iff {p : Params} (laws : CrcLaws p) (r b : Byte) : crc8 p r b = 0 ↔ b = r := by
  constructor
  · intro zero
    exact crc8_injective laws (zero.trans (crc8_self laws r).symm)
  · rintro rfl
    exact crc8_self laws b

theorem payloadOk_iff (p : Params) (window : List Byte) :
    payloadOk p window = true ↔ crc8Over p window Config.seed = 0 := decide_eq_true_iff

/-- The check of a window (40 R148). -/
theorem payloadOk_concat_iff {p : Params} (laws : CrcLaws p) (payload : List Byte) (b : Byte) :
    payloadOk p (payload ++ [b]) = true ↔ b = payloadCrc p payload := by
  rw [payloadOk_iff, crc8Over_concat, crc8_eq_zero_iff laws, payloadCrc]

/-- A window closed by its own CRC verifies. -/
theorem payloadOk_closed {p : Params} (laws : CrcLaws p) (payload : List Byte) :
    payloadOk p (payload ++ [payloadCrc p payload]) = true :=
  (payloadOk_concat_iff laws payload _).2 rfl

/-- The check of a header pair (40 R148). -/
theorem headerCrc_iff {p : Params} (laws : CrcLaws p) (h c : Byte) :
    crc8 p (crc8 p Config.seed h) c = 0 ↔ c = headerCrc p h := crc8_eq_zero_iff laws _ c

/-- Settles O10: all three are the check of one byte. -/
theorem crcCheckIsEquality : Obligations.CrcCheckIsEquality := by
  intro p laws
  exact ⟨crc8_eq_zero_iff laws, payloadOk_concat_iff laws, headerCrc_iff laws⟩

/-! ## Detection -/

/-- Runs over the same bytes from different values end at different values. -/
theorem crc8Over_injective {p : Params} (laws : CrcLaws p) : ∀ {bytes : List Byte} {r q : Byte},
    crc8Over p bytes r = crc8Over p bytes q → r = q
  | [], _, _, same => same
  | _ :: _, _, _, same => crc8_injective_left laws (crc8Over_injective laws same)

/-- Two sequences that differ in one byte have different CRCs (40 R149). -/
theorem crc8Over_ne_of_one {p : Params} (laws : CrcLaws p) (before after : List Byte) {a b : Byte} (r : Byte)
    (differ : a ≠ b) : crc8Over p (before ++ a :: after) r ≠ crc8Over p (before ++ b :: after) r := by
  intro same
  rw [crc8Over_append, crc8Over_append] at same
  exact differ (crc8_injective laws (crc8Over_injective laws same))

/-- A window that verified does not verify after a change of one byte. -/
theorem payloadOk_false_of_one {p : Params} (laws : CrcLaws p) {before after : List Byte} {a b : Byte} (differ : a ≠ b)
    (good : payloadOk p (before ++ a :: after) = true) : payloadOk p (before ++ b :: after) = false := by
  rw [payloadOk_iff] at good
  rw [← Bool.not_eq_true, payloadOk_iff, ← good]
  exact (crc8Over_ne_of_one laws before after Config.seed differ).symm

/-- Settles O11; the two requests of one CRC are the spec's own example. -/
theorem crcDetectsOneByte : Obligations.CrcDetectsOneByte := by
  refine ⟨fun p laws before after a b r differ => ?_, by decide, by decide⟩
  exact ⟨crc8Over_ne_of_one laws before after r differ, payloadOk_false_of_one laws differ⟩

/-- Settles O12: a fact of 256 entries, each computed. -/
theorem referenceTableIsThePolynomial : Obligations.ReferenceTableIsThePolynomial := by
  unfold Obligations.ReferenceTableIsThePolynomial
  decide +kernel

/-! ## The pure functions -/

/-- Settles O13, function by function: each arm answers its own definition. -/
theorem codecFunctionsAnswer : Obligations.CodecFunctionsAnswer := by
  refine ⟨?crc8, ?crc8OverNil, ?crc8OverCons, ?crc8Over, ?makeHeader, ?splitHeader, ?headerCrc, ?buildWriteFrame,
    ?buildReadRequest, ?buildCmdFrame, ?payloadOk, ?decodeInquire⟩
  case crc8 => intros; rfl
  case crc8OverNil => intros; rfl
  case crc8OverCons => intros; rfl
  case crc8Over => intros; rfl
  case makeHeader => intros; rfl
  case splitHeader => intros; rfl
  case headerCrc => intros; rfl
  case buildWriteFrame => intros; rfl
  case buildReadRequest => intros; rfl
  case buildCmdFrame => intros; rfl
  case payloadOk => intros; rfl
  case decodeInquire => intros; rfl

/-! ## Encoders and decoders -/

/-- The last byte of the INQUIRE response, both ways (41 R168). -/
theorem inquireLast_split : ∀ (hw : HwRev) (btn : Bool),
    (((BitVec.ofBool btn).setWidth 8 <<< 7 ||| hw.setWidth 8 : Byte).extractLsb' 0 7 = hw) ∧
    ((BitVec.ofBool btn).setWidth 8 <<< 7 ||| hw.setWidth 8 : Byte).getLsbD 7 = btn := by decide

theorem inquireLast_join : ∀ b : Byte,
    ((BitVec.ofBool (b.getLsbD 7)).setWidth 8 <<< 7 ||| (b.extractLsb' 0 7).setWidth 8 : Byte) = b := by decide

/-- The response of a slave tells its identity and its button. -/
theorem inquire_encodeInquire (t f : Word16) (hw : HwRev) (btn : Bool) :
    inquireType (encodeInquire t f hw btn) = t ∧ inquireFw (encodeInquire t f hw btn) = f ∧
    inquireHw (encodeInquire t f hw btn) = hw ∧ inquireButton (encodeInquire t f hw btn) = btn :=
  ⟨word16_bytes t, word16_bytes f, inquireLast_split hw btn⟩

theorem encodeInquire_inquire (resp : Vector Byte 5) :
    encodeInquire (inquireType resp) (inquireFw resp) (inquireHw resp) (inquireButton resp) = resp := by
  simp only [encodeInquire, inquireType, inquireFw, inquireHw, inquireButton, hiByte_word16, loByte_word16,
    inquireLast_join]
  exact (vector_five resp).symm

theorem splitHeader_makeHeader (c : MsgClass) (a : Addr) : splitHeader (makeHeader c a) = (c, a) :=
  Prod.ext (headerClass_makeHeader c a) (headerAddr_makeHeader c a)

/-- Settles O14: the header byte both ways, then the INQUIRE response both ways. -/
theorem codecPairsAreInverse : Obligations.CodecPairsAreInverse :=
  ⟨splitHeader_makeHeader, makeHeader_split, inquire_encodeInquire, encodeInquire_inquire⟩

/-! ## Frames -/

/-- The header pair of a frame passes its receiver's check (41 R163). -/
theorem headerPair_verifies {p : Params} (laws : CrcLaws p) (h : Byte) :
    crc8Over p [h, headerCrc p h] Config.seed = 0 := (headerCrc_iff laws h _).2 rfl

/-- Settles O15: a built frame is a header pair and, where it has a payload, the payload closed by its CRC. -/
theorem builtFramesVerify : Obligations.BuiltFramesVerify := by
  intro p laws a c payload request
  have split := splitHeader_makeHeader
  have pair := headerPair_verifies laws
  refine ⟨?write, ?read, ?cmd⟩
  case write =>
    exact ⟨_, _, payload ++ [payloadCrc p payload], rfl, by simp, split c a, pair _, payloadOk_closed laws payload⟩
  case read => exact ⟨_, _, rfl, split c a, pair _⟩
  case cmd =>
    refine ⟨_, _, request.toList ++ [payloadCrc p request.toList], rfl, by simp, split 7 a, pair _, ?_⟩
    exact payloadOk_closed laws request.toList

end Sys2Proof.Machine
end

section
/-! SUPPORT. The handlers of a slave, cell by cell (44 R263 to R281, 45 R321 to R326): one equation for each way a handler can
go. -/

namespace Sys2Proof.Machine

theorem onEvent_rx (p : Params) (b : Byte) (sl : Slave) (f : Free) : onEvent p (.rx b) sl f = onRx p b sl f := rfl
theorem onEvent_txe (p : Params) (sl : Slave) (f : Free) : onEvent p .txe sl f = onTxe p sl f := rfl
theorem onEvent_tick (p : Params) (sl : Slave) (f : Free) : onEvent p .tick sl f = onTick p sl f := rfl

/-! ## The header (44 R264 to R266) -/

theorem onRx_header {p : Params} {b : Byte} {sl : Slave} {f : Free} (st : sl.st = .rxHeader) (first : sl.idx = 0) :
    onRx p b sl f = .quiet (rxHeaderByte p b sl) f := by
  simp [onRx, st, first]

theorem onRx_headerCrc {p : Params} {b : Byte} {sl : Slave} {f : Free} (st : sl.st = .rxHeader) (second : sl.idx ≠ 0) :
    onRx p b sl f = .quiet (rxHeaderCrc p b sl) f := by
  simp only [onRx, st, second, if_false]

/-- A header with a bad CRC or for another address is discarded. -/
theorem rxHeaderCrc_foreign {p : Params} {b : Byte} {sl : Slave}
    (foreign : crc8 p sl.crc b ≠ 0 ∨ headerAddr sl.hdr ≠ sl.ownAddr) :
    rxHeaderCrc p b sl = { sl with st := .waitBreak, crc := crc8 p sl.crc b } := by
  by_cases good : crc8 p sl.crc b = 0
  · have other := foreign.resolve_left (not_not.2 good)
    simp [rxHeaderCrc, good, other, Slave.revert]
  · exact if_pos good

theorem rxHeaderCrc_command {p : Params} {b : Byte} {sl : Slave} (good : crc8 p sl.crc b = 0)
    (own : headerAddr sl.hdr = sl.ownAddr) (cmd : headerClass sl.hdr = Config.cmdClass) :
    rxHeaderCrc p b sl = { sl with st := .rxCtrlMsg, len := 5, idx := 0, crc := Config.seed } := by
  simp [rxHeaderCrc, good, own, cmd]

theorem rxHeaderCrc_data {p : Params} {b : Byte} {sl : Slave} (good : crc8 p sl.crc b = 0)
    (own : headerAddr sl.hdr = sl.ownAddr) (data : headerClass sl.hdr ≠ Config.cmdClass) :
    rxHeaderCrc p b sl = classifyHeader (headerClass sl.hdr) { sl with crc := 0 } := by
  simp [rxHeaderCrc, good, own, data]

/-- The device's record of being asked for a class. -/
def Device.asked (cls : MsgClass) (d : Device) : Device :=
  { d with pos := 0, calls := .initTransfer cls :: d.calls }

theorem initTransfer_eq (cls : MsgClass) (d : Device) : d.initTransfer cls = (d.kind cls, d.asked cls) := rfl

theorem classifyHeader_receive {cls : MsgClass} {sl : Slave} {n : Nat} (kind : sl.dev.kind cls = .receive n) :
    classifyHeader cls sl =
      { sl with st := .rxMsg, crc := Config.seed, msgClass := cls, dev := sl.dev.asked cls } := by
  simp [classifyHeader, initTransfer_eq, kind]

theorem classifyHeader_transmit {cls : MsgClass} {sl : Slave} {n : Nat} (kind : sl.dev.kind cls = .transmit n) :
    classifyHeader cls sl =
      { sl with
        st := .txMsg, crc := Config.seed, msgClass := cls, txEn := true
        dev := (sl.dev.asked cls).note (.enableTransmitEmptySignal true) } := by
  simp [classifyHeader, initTransfer_eq, kind, Slave.signalTxe]

theorem classifyHeader_ignore {cls : MsgClass} {sl : Slave} (kind : sl.dev.kind cls = .ignore) :
    classifyHeader cls sl = { sl with st := .waitBreak, msgClass := cls, dev := sl.dev.asked cls } := by
  simp [classifyHeader, initTransfer_eq, kind, Slave.revert]

/-! ## Reception (44 R267 to R274) -/

theorem onRx_rxMsg {p : Params} {b : Byte} {sl : Slave} {f : Free} (st : sl.st = .rxMsg) :
    onRx p b sl f = .quiet (rxPayload p b sl) f := by
  simp [onRx, st]

theorem rxPayload_receive {p : Params} {b : Byte} {sl : Slave} {more : Nat}
    (kind : sl.dev.kind sl.msgClass = .receive more) :
    rxPayload p b sl = { sl with
      st := if sl.dev.pos < more then sl.st else .checkRxCrc
      crc := crc8 p sl.crc b
      dev := { sl.dev with pos := sl.dev.pos + 1, calls := .storeByte b :: sl.dev.calls } } := by
  by_cases wants : sl.dev.pos < more <;> simp [rxPayload, Device.storeByte, kind, wants, Device.note]

theorem onRx_checkRxCrc {p : Params} {b : Byte} {sl : Slave} {f : Free} (st : sl.st = .checkRxCrc) :
    onRx p b sl f = .quiet (rxPayloadCrc p b sl) f := by
  simp [onRx, st]

theorem rxPayloadCrc_bad {p : Params} {b : Byte} {sl : Slave} (bad : crc8 p sl.crc b ≠ 0) :
    rxPayloadCrc p b sl = { sl with st := .waitBreak, crc := crc8 p sl.crc b } := by
  exact if_pos bad

theorem rxPayloadCrc_good {p : Params} {b : Byte} {sl : Slave} (good : crc8 p sl.crc b = 0) :
    rxPayloadCrc p b sl = { sl with
      st := .txAck, crc := 0, txEn := true
      dev := { sl.dev with
        calls := .enableTransmitEmptySignal true :: .endTransfer sl.msgClass :: sl.dev.calls } } := by
  simp [rxPayloadCrc, good, Slave.signalTxe, Slave.note, Device.note]

theorem onRx_rxCtrlMsg {p : Params} {b : Byte} {sl : Slave} {f : Free} (st : sl.st = .rxCtrlMsg) :
    onRx p b sl f = .quiet (rxRequest p b sl) f := by
  simp [onRx, st]

theorem rxRequest_eq {p : Params} {b : Byte} {sl : Slave} (inRange : sl.idx.toNat < 5) :
    rxRequest p b sl = { sl with
      st := if sl.idx = 4 then .checkRxCtrlCrc else sl.st
      crc := crc8 p sl.crc b
      ctrlReq := sl.ctrlReq.set sl.idx.toNat b inRange
      idx := sl.idx + 1 } := by
  have last : sl.idx + 1 = 5 ↔ sl.idx = 4 := by constructor <;> intro h <;> bv_omega
  have placed : sl.ctrlReq.setIfInBounds sl.idx.toNat b = sl.ctrlReq.set sl.idx.toNat b inRange := by
    simp [Vector.setIfInBounds, Vector.set, Array.setIfInBounds, inRange]
  unfold rxRequest
  simp only [last, placed]
  by_cases final : sl.idx = 4 <;> simp only [final, if_true, if_false]

theorem onRx_checkRxCtrlCrc {p : Params} {b : Byte} {sl : Slave} {f : Free} (st : sl.st = .checkRxCtrlCrc) :
    onRx p b sl f = rxRequestCrc p b sl f := by
  simp [onRx, st]

theorem rxRequestCrc_bad {p : Params} {b : Byte} {sl : Slave} {f : Free} (bad : crc8 p sl.crc b ≠ 0) :
    rxRequestCrc p b sl f = .quiet { sl with st := .waitBreak, crc := crc8 p sl.crc b } f := by
  exact if_pos bad

theorem rxRequestCrc_probe {p : Params} {b : Byte} {sl : Slave} {f : Free} (good : crc8 p sl.crc b = 0)
    (sub : sl.ctrlReq[0] = Config.subProbe) :
    rxRequestCrc p b sl f =
      .quiet (answerWith (fiveOf (Free.drawList 5 f).1) { sl with crc := 0 }) (Free.drawList 5 f).2 := by
  simp [rxRequestCrc, good, sub, dispatchProbe, drawFiller]

theorem rxRequestCrc_inquire {p : Params} {b : Byte} {sl : Slave} {f : Free} (good : crc8 p sl.crc b = 0)
    (sub : sl.ctrlReq[0] = Config.subInquire) :
    rxRequestCrc p b sl f =
      .quiet (answerWith (encodeInquire sl.devType sl.fwVer sl.hwRev (f.draw.1.getLsbD 0))
        ({ sl with crc := 0 }.note (.readIndicator (f.draw.1.getLsbD 0)))) f.draw.2 := by
  have notProbe : Config.subInquire ≠ Config.subProbe := by decide
  have notRenum : Config.subInquire ≠ Config.subRenum := by decide
  simp [rxRequestCrc, good, sub, dispatchInquire, notProbe, notRenum]

theorem rxRequestCrc_renum {p : Params} {b : Byte} {sl : Slave} {f : Free} (good : crc8 p sl.crc b = 0)
    (sub : sl.ctrlReq[0] = Config.subRenum) :
    rxRequestCrc p b sl f = dispatchRenum p { sl with crc := 0 } f := by
  have notProbe : Config.subRenum ≠ Config.subProbe := by decide
  simp [rxRequestCrc, good, sub, notProbe]

theorem rxRequestCrc_reserved {p : Params} {b : Byte} {sl : Slave} {f : Free} (good : crc8 p sl.crc b = 0)
    (sub : (3 : Byte) ≤ sl.ctrlReq[0]) :
    rxRequestCrc p b sl f = .quiet { sl with st := .waitBreak, crc := 0 } f := by
  have notProbe : sl.ctrlReq[0] ≠ Config.subProbe := by intro h; rw [h] at sub; exact absurd sub (by decide)
  have notRenum : sl.ctrlReq[0] ≠ Config.subRenum := by intro h; rw [h] at sub; exact absurd sub (by decide)
  have notInquire : sl.ctrlReq[0] ≠ Config.subInquire := by intro h; rw [h] at sub; exact absurd sub (by decide)
  simp [rxRequestCrc, good, notProbe, notRenum, notInquire, Slave.revert]

/-! ## Transmission (44 R275 to R277) -/

theorem onTxe_txAck {p : Params} {sl : Slave} {f : Free} (st : sl.st = .txAck) :
    onTxe p sl f = ⟨{ sl with
      st := .waitBreak, txEn := false
      dev := { sl.dev with calls := .enableTransmitEmptySignal false :: sl.dev.calls } }, f, some 0x55⟩ := by
  simp [onTxe, st, txAckByte, Slave.signalTxe, Device.note, Config.ack]

theorem onTxe_txMsg_byte {p : Params} {sl : Slave} {f : Free} {n : Nat} (st : sl.st = .txMsg)
    (kind : sl.dev.kind sl.msgClass = .transmit n) (more : sl.dev.pos < n) :
    onTxe p sl f = ⟨{ sl with
      crc := crc8 p sl.crc f.draw.1
      dev := { sl.dev with pos := sl.dev.pos + 1, calls := .fetchByte (some f.draw.1) :: sl.dev.calls } },
      f.draw.2, some f.draw.1⟩ := by
  simp [onTxe, st, txPayload, Device.fetchByte, kind, more, Device.note]

theorem onTxe_txMsg_crc {p : Params} {sl : Slave} {f : Free} {n : Nat} (st : sl.st = .txMsg)
    (kind : sl.dev.kind sl.msgClass = .transmit n) (done : n ≤ sl.dev.pos) :
    onTxe p sl f = ⟨{ sl with
      st := .waitBreak, txEn := false
      dev := { sl.dev with
        calls := .endTransfer sl.msgClass :: .enableTransmitEmptySignal false :: .fetchByte none :: sl.dev.calls } },
      f, some sl.crc⟩ := by
  simp [onTxe, st, txPayload, Device.fetchByte, kind, Nat.not_lt.2 done, Device.note, Slave.signalTxe, Slave.note]

theorem onTxe_txCtrlResp_byte {p : Params} {sl : Slave} {f : Free} (st : sl.st = .txCtrlResp) (h : sl.idx.toNat < 5) :
    onTxe p sl f =
      ⟨{ sl with crc := crc8 p sl.crc sl.ctrlResp[sl.idx.toNat], idx := sl.idx + 1 }, f,
        some sl.ctrlResp[sl.idx.toNat]⟩ := by
  simp [onTxe, st, txResponse, h]

theorem onTxe_txCtrlResp_crc {p : Params} {sl : Slave} {f : Free} (st : sl.st = .txCtrlResp) (done : 5 ≤ sl.idx.toNat) :
    onTxe p sl f = ⟨{ sl with
      st := .waitBreak, txEn := false
      dev := { sl.dev with calls := .enableTransmitEmptySignal false :: sl.dev.calls } }, f, some sl.crc⟩ := by
  simp [onTxe, st, txResponse, Nat.not_lt.2 done, Slave.signalTxe, Device.note]

/-! ## The renumber arbitration (45 R321 to R326) -/

theorem onTick_running {p : Params} {sl : Slave} {f : Free} (st : sl.st = .waitRenumTimer)
    (running : p.tickUs < sl.renumTimer.toNat) :
    onTick p sl f = .quiet { sl with renumTimer := BitVec.ofNat 16 (sl.renumTimer.toNat - p.tickUs) } f := by
  simp [onTick, st, tickRenum, running]

/-- The timer after a tick that does not end it, as a number. -/
theorem timer_after_tick (timer : Word16) (tick : Nat) :
    (BitVec.ofNat 16 (timer.toNat - tick)).toNat = timer.toNat - tick := by
  have bound := timer.isLt
  rw [BitVec.toNat_ofNat, Nat.mod_eq_of_lt (by omega)]

theorem onTick_elapsed {p : Params} {sl : Slave} {f : Free} (st : sl.st = .waitRenumTimer)
    (elapsed : sl.renumTimer.toNat ≤ p.tickUs) :
    onTick p sl f = ⟨{ sl with
      st := .txRenumConf, renumTimer := 0, crc := crc8 p Config.seed sl.ctrlResp[0], lastTx := sl.ctrlResp[0], idx := 1 },
      f, some sl.ctrlResp[0]⟩ := by
  simp [onTick, st, tickRenum, Nat.not_lt.2 elapsed, startConfirm]

theorem onRx_waitRenumTimer {p : Params} {b : Byte} {sl : Slave} {f : Free} (st : sl.st = .waitRenumTimer) :
    onRx p b sl f = .quiet { sl with st := .waitBreak } f := by
  simp [onRx, st, Slave.revert]

theorem onRx_confirm_mismatch {p : Params} {b : Byte} {sl : Slave} {f : Free} (st : sl.st = .txRenumConf)
    (heard : b ≠ sl.lastTx) : onRx p b sl f = .quiet { sl with st := .waitBreak } f := by
  simp [onRx, st, rxRenumConf, heard, Slave.revert]

theorem onRx_confirm_byte {p : Params} {b : Byte} {sl : Slave} {f : Free} (st : sl.st = .txRenumConf)
    (heard : b = sl.lastTx) (h : sl.idx.toNat < 5) :
    onRx p b sl f = ⟨{ sl with
      crc := crc8 p sl.crc sl.ctrlResp[sl.idx.toNat], lastTx := sl.ctrlResp[sl.idx.toNat], idx := sl.idx + 1 },
      f, some sl.ctrlResp[sl.idx.toNat]⟩ := by
  have notDone : sl.idx ≠ 6 := by intro six; simp [six] at h
  simp only [onRx, st, rxRenumConf, heard, ne_eq, not_true_eq_false, if_false, notDone, h, dite_true, sendConfirm]

theorem onRx_confirm_crc {p : Params} {b : Byte} {sl : Slave} {f : Free} (st : sl.st = .txRenumConf)
    (heard : b = sl.lastTx) (five : sl.idx = 5) :
    onRx p b sl f = ⟨{ sl with lastTx := sl.crc, idx := 6 }, f, some sl.crc⟩ := by
  simp [onRx, st, rxRenumConf, heard, five, sendConfirm]

theorem onRx_confirm_commit {p : Params} {b : Byte} {sl : Slave} {f : Free} (st : sl.st = .txRenumConf)
    (heard : b = sl.lastTx) (six : sl.idx = 6) :
    onRx p b sl f = .quiet { sl with
      st := .waitBreak, ownAddr := sl.renumTarget, eepromAddr := sl.renumTarget
      dev := { sl.dev with calls := .persistAddress sl.renumTarget :: sl.dev.calls } } f := by
  simp [onRx, st, rxRenumConf, heard, six, commitRenum, Slave.note, Device.note]

/-! ## The cells as the rules give them -/

/-- Settles O18, way by way through the second header byte. -/
theorem headerBytesAreDecoded : Obligations.HeaderBytesAreDecoded := by
  intro p sl f b st
  simp only [onEvent_rx]
  refine ⟨fun first => onRx_header st first, fun second foreign => ?foreign, fun second good own cmd => ?command,
    fun second good own data => ⟨fun n kind => ?receive, fun n kind => ?transmit, fun kind => ?ignore⟩⟩
  all_goals rw [onRx_headerCrc st (by rw [second]; decide)]
  case foreign => rw [rxHeaderCrc_foreign foreign]; rfl
  case command => rw [rxHeaderCrc_command good own cmd]; rfl
  case receive => rw [rxHeaderCrc_data good own data, classifyHeader_receive (sl := { sl with crc := 0 }) kind]; rfl
  case transmit => rw [rxHeaderCrc_data good own data, classifyHeader_transmit (sl := { sl with crc := 0 }) kind]; rfl
  case ignore => rw [rxHeaderCrc_data good own data, classifyHeader_ignore (sl := { sl with crc := 0 }) kind]; rfl

/-- Settles O19: the payload byte, then the CRC byte both ways. -/
theorem writeBytesAreReceived : Obligations.WriteBytesAreReceived := by
  intro p sl f b
  simp only [onEvent_rx]
  refine ⟨fun st more kind => ?payload, fun st bad => ?bad, fun st good => ?good⟩
  case payload => rw [onRx_rxMsg st, rxPayload_receive kind, st]; rfl
  case bad => rw [onRx_checkRxCrc st, rxPayloadCrc_bad bad]; rfl
  case good => rw [onRx_checkRxCrc st, rxPayloadCrc_good good]; rfl

/-- Settles O20: the request byte, then the CRC byte and the dispatch of each sub-command. -/
theorem commandBytesAreReceived : Obligations.CommandBytesAreReceived := by
  intro p sl f b
  simp only [onEvent_rx]
  refine ⟨fun st h => ?request, fun st bad => ?bad, fun st good sub => ?probe, fun st good sub => ?inquire,
    fun st good sub => ?reserved⟩
  case request => rw [onRx_rxCtrlMsg st, rxRequest_eq h, st]; rfl
  case bad => rw [onRx_checkRxCtrlCrc st, rxRequestCrc_bad bad]; rfl
  case probe => rw [onRx_checkRxCtrlCrc st, rxRequestCrc_probe good sub]; rfl
  case inquire => rw [onRx_checkRxCtrlCrc st, rxRequestCrc_inquire good sub]; rfl
  case reserved => rw [onRx_checkRxCtrlCrc st, rxRequestCrc_reserved good sub]; rfl

/-- Settles O21, one transmitting state after the other. -/
theorem transmitEmptySendsTheReply : Obligations.TransmitEmptySendsTheReply := by
  intro p sl f
  exact ⟨onTxe_txAck, fun st n kind more => onTxe_txMsg_byte st kind more, fun st n kind done => onTxe_txMsg_crc st kind done,
    fun st h => onTxe_txCtrlResp_byte st h, fun st done => onTxe_txCtrlResp_crc st done⟩

/-- The backoff is the exact number of microseconds where 16 bits hold it (45 R321, log 17). -/
theorem backoffUs_toNat {p : Params} {k : Nat} (fits : k * 2 * p.charBits * 1000000 / p.baud < 65536) :
    (backoffUs p k).toNat = k * 2 * p.charBits * 1000000 / p.baud := by
  rw [backoffUs, BitVec.toNat_ofNat, Nat.mod_eq_of_lt fits]

/-- RENUM dispatch from the free values as they are after the target is taken. -/
theorem dispatchRenum_eq (p : Params) (sl : Slave) (f : Free) :
    dispatchRenum p sl f =
      let t := renumTargetOf sl.ctrlReq[1] f
      ⟨{ sl with
          st := .waitRenumTimer, renumTarget := t.1, ctrlResp := fiveOf (Free.drawList 5 t.2).1
          renumTimer := backoffUs p ((Free.drawList 5 t.2).2.draw.1.toNat % 32) },
        (Free.drawList 5 t.2).2.draw.2, none⟩ := rfl

/-- Settles O22, event by event of the arbitration. -/
theorem renumberEventsFollowTheRules : Obligations.RenumberEventsFollowTheRules := by
  intro p sl f b
  simp only [onEvent_rx, onEvent_tick]
  refine ⟨fun st good sub low => ?address, fun st good sub high => ?freeTarget, fun st running => ?running,
    fun st elapsed => onTick_elapsed st elapsed, fun st => onRx_waitRenumTimer st,
    fun st heard => onRx_confirm_mismatch st heard, fun st heard h => onRx_confirm_byte st heard h,
    fun st heard five => onRx_confirm_crc st heard five, fun st heard six => onRx_confirm_commit st heard six⟩
  case address =>
    refine ⟨_, ?_, backoffUs_toNat⟩
    rw [onRx_checkRxCtrlCrc st, rxRequestCrc_renum good sub, dispatchRenum_eq, renumTargetOf, if_pos low]
  case freeTarget =>
    refine ⟨_, ?_, backoffUs_toNat⟩
    rw [onRx_checkRxCtrlCrc st, rxRequestCrc_renum good sub, dispatchRenum_eq, renumTargetOf, if_neg (BitVec.not_lt.2 high)]
  case running => exact ⟨_, timer_after_tick _ _, onTick_running st running⟩

end Sys2Proof.Machine
end

section
/-! SUPPORT. What every event keeps of a slave (10 R25, 20 R97, 44 R278), and what only some events do (44 R282, 45 R326, 60
R347). -/

namespace Sys2Proof.Machine

/-! ## Soundness, handler by handler -/

/-- A slave that waits for the next break, its signalling off, is sound. -/
theorem sound_of_waiting {sl : Slave} (st : sl.st = .waitBreak) (off : sl.txEn = false)
    (persisted : sl.ownAddr = sl.eepromAddr) : sl.Sound := by
  simp [Slave.Sound, st, off, persisted]

/-- A sound slave outside the three transmitting states does not signal. -/
theorem Slave.Sound.silent {sl : Slave} (h : sl.Sound) (notAck : sl.st ≠ .txAck) (notMsg : sl.st ≠ .txMsg)
    (notResp : sl.st ≠ .txCtrlResp) : sl.txEn = false := by
  obtain ⟨signalling, -⟩ := h
  cases on : sl.txEn with
  | false => rfl
  | true => simp [on, notAck, notMsg, notResp] at signalling

theorem Slave.Sound.persisted {sl : Slave} (h : sl.Sound) : sl.ownAddr = sl.eepromAddr := h.2.1

theorem onBreak_eepromAddr (sl : Slave) : sl.onBreak.eepromAddr = sl.eepromAddr := by
  unfold Slave.onBreak
  split <;> rfl

theorem onBreak_sound {sl : Slave} (h : sl.Sound) : sl.onBreak.Sound := by
  simp [Slave.Sound, onBreak_eepromAddr, h.persisted]

theorem rxHeaderByte_sound (p : Params) (b : Byte) {sl : Slave} (h : sl.Sound) (st : sl.st = .rxHeader) :
    (rxHeaderByte p b sl).Sound := by
  have off := h.silent (by simp [st]) (by simp [st]) (by simp [st])
  simp [Slave.Sound, rxHeaderByte, st, off, h.persisted]

theorem classifyHeader_sound (cls : MsgClass) {sl : Slave} (off : sl.txEn = false)
    (persisted : sl.ownAddr = sl.eepromAddr) : (classifyHeader cls sl).Sound := by
  cases kind : sl.dev.kind cls with
  | ignore => rw [classifyHeader_ignore kind]; exact sound_of_waiting rfl off persisted
  | receive n => rw [classifyHeader_receive kind]; simp [Slave.Sound, off, persisted]
  | transmit n => rw [classifyHeader_transmit kind]; simp [Slave.Sound, persisted]

theorem rxHeaderCrc_sound (p : Params) (b : Byte) {sl : Slave} (h : sl.Sound) (st : sl.st = .rxHeader) :
    (rxHeaderCrc p b sl).Sound := by
  have off := h.silent (by simp [st]) (by simp [st]) (by simp [st])
  by_cases foreign : crc8 p sl.crc b ≠ 0 ∨ headerAddr sl.hdr ≠ sl.ownAddr
  · rw [rxHeaderCrc_foreign foreign]
    exact sound_of_waiting rfl off h.persisted
  · obtain ⟨good, own⟩ : crc8 p sl.crc b = 0 ∧ headerAddr sl.hdr = sl.ownAddr := by simpa using foreign
    by_cases cmd : headerClass sl.hdr = Config.cmdClass
    · rw [rxHeaderCrc_command good own cmd]
      simp [Slave.Sound, off, h.persisted]
    · rw [rxHeaderCrc_data good own cmd]
      exact classifyHeader_sound _ off h.persisted

theorem rxPayload_sound (p : Params) (b : Byte) {sl : Slave} (h : sl.Sound) (st : sl.st = .rxMsg) :
    (rxPayload p b sl).Sound := by
  have off := h.silent (by simp [st]) (by simp [st]) (by simp [st])
  simp only [rxPayload]
  split <;> simp [Slave.Sound, st, off, h.persisted]

theorem rxRequest_sound (p : Params) (b : Byte) {sl : Slave} (h : sl.Sound) (st : sl.st = .rxCtrlMsg) :
    (rxRequest p b sl).Sound := by
  have off := h.silent (by simp [st]) (by simp [st]) (by simp [st])
  have inRange : sl.idx.toNat ≤ 4 := h.2.2.2.1 st
  rw [rxRequest_eq (by omega)]
  by_cases last : sl.idx = 4
  · simp [Slave.Sound, last, off, h.persisted]
  · have next : (sl.idx + 1).toNat ≤ 4 := by bv_omega
    simp only [Slave.Sound, last, if_false, st, off, h.persisted]
    simpa using next

theorem rxPayloadCrc_sound (p : Params) (b : Byte) {sl : Slave} (h : sl.Sound) (st : sl.st = .checkRxCrc) :
    (rxPayloadCrc p b sl).Sound := by
  have off := h.silent (by simp [st]) (by simp [st]) (by simp [st])
  by_cases good : crc8 p sl.crc b = 0
  · rw [rxPayloadCrc_good good]; simp [Slave.Sound, h.persisted]
  · rw [rxPayloadCrc_bad good]; exact sound_of_waiting rfl off h.persisted

theorem answerWith_sound (resp : Vector Byte 5) {sl : Slave} (persisted : sl.ownAddr = sl.eepromAddr) :
    (answerWith resp sl).Sound := by
  simp [Slave.Sound, answerWith, persisted]

theorem rxRequestCrc_sound (p : Params) (b : Byte) {sl : Slave} (f : Free) (h : sl.Sound) (st : sl.st = .checkRxCtrlCrc) :
    (rxRequestCrc p b sl f).slave.Sound := by
  have off := h.silent (by simp [st]) (by simp [st]) (by simp [st])
  have persisted := h.persisted
  simp only [rxRequestCrc]
  split
  · exact sound_of_waiting rfl off persisted
  · split
    · exact answerWith_sound _ persisted
    · split
      · simp [Slave.Sound, dispatchRenum_eq, off, persisted]
      · split
        · exact answerWith_sound _ persisted
        · exact sound_of_waiting rfl off persisted

theorem rxRenumConf_sound (p : Params) (b : Byte) {sl : Slave} (f : Free) (h : sl.Sound) (st : sl.st = .txRenumConf) :
    (rxRenumConf p b sl f).slave.Sound := by
  have off := h.silent (by simp [st]) (by simp [st]) (by simp [st])
  obtain ⟨low, high⟩ := h.2.2.2.2.2 st
  have sent (x crc : Byte) (notDone : sl.idx ≠ 6) : (sendConfirm x { sl with crc := crc } f).slave.Sound := by
    have next : 1 ≤ (sl.idx + 1).toNat ∧ (sl.idx + 1).toNat ≤ 6 := by bv_omega
    simp only [Slave.Sound, sendConfirm, st, off, h.persisted]
    simpa using next
  simp only [rxRenumConf]
  split
  · exact sound_of_waiting rfl off h.persisted
  · split
    · exact sound_of_waiting rfl off rfl
    · split
      · exact sent _ _ ‹_›
      · exact sent _ _ ‹_›

theorem onRx_sound (p : Params) (b : Byte) {sl : Slave} (f : Free) (h : sl.Sound) : (onRx p b sl f).slave.Sound := by
  cases st : sl.st with
  | waitBreak => rw [onRx_ignored p b f (by simp [st])]; exact h
  | txAck => rw [onRx_ignored p b f (by simp [st])]; exact h
  | txMsg => rw [onRx_ignored p b f (by simp [st])]; exact h
  | txCtrlResp => rw [onRx_ignored p b f (by simp [st])]; exact h
  | rxHeader =>
    by_cases first : sl.idx = 0
    · rw [onRx_header st first]; exact rxHeaderByte_sound p b h st
    · rw [onRx_headerCrc st first]; exact rxHeaderCrc_sound p b h st
  | rxMsg => rw [onRx_rxMsg st]; exact rxPayload_sound p b h st
  | rxCtrlMsg => rw [onRx_rxCtrlMsg st]; exact rxRequest_sound p b h st
  | checkRxCrc => rw [onRx_checkRxCrc st]; exact rxPayloadCrc_sound p b h st
  | checkRxCtrlCrc => rw [onRx_checkRxCtrlCrc st]; exact rxRequestCrc_sound p b f h st
  | waitRenumTimer =>
    rw [onRx_waitRenumTimer st]
    exact sound_of_waiting rfl (h.silent (by simp [st]) (by simp [st]) (by simp [st])) h.persisted
  | txRenumConf =>
    have same : onRx p b sl f = rxRenumConf p b sl f := by simp only [onRx, st]
    rw [same]; exact rxRenumConf_sound p b f h st

theorem txPayload_sound (p : Params) {sl : Slave} (f : Free) (h : sl.Sound) (st : sl.st = .txMsg) :
    (txPayload p sl f).slave.Sound := by
  have on : sl.txEn = true := h.1.2 (.inr (.inl st))
  simp only [txPayload]
  split
  · simp [Slave.Sound, st, on, h.persisted]
  · exact sound_of_waiting rfl rfl h.persisted

theorem txResponse_sound (p : Params) {sl : Slave} (f : Free) (h : sl.Sound) (st : sl.st = .txCtrlResp) :
    (txResponse p sl f).slave.Sound := by
  have on : sl.txEn = true := h.1.2 (.inr (.inr st))
  simp only [txResponse]
  split
  · have next : (sl.idx + 1).toNat ≤ 5 := by bv_omega
    simp only [Slave.Sound, st, on, h.persisted]
    simpa using next
  · exact sound_of_waiting rfl rfl h.persisted

theorem onTxe_sound (p : Params) {sl : Slave} (f : Free) (h : sl.Sound) : (onTxe p sl f).slave.Sound := by
  cases st : sl.st with
  | txAck => rw [onTxe_txAck st]; exact sound_of_waiting rfl rfl h.persisted
  | txMsg => simp only [onTxe, st]; exact txPayload_sound p f h st
  | txCtrlResp => simp only [onTxe, st]; exact txResponse_sound p f h st
  | _ => rw [onTxe_ignored p f (by simp [st]) (by simp [st]) (by simp [st])]; exact h

theorem onTick_sound (p : Params) {sl : Slave} (f : Free) (h : sl.Sound) : (onTick p sl f).slave.Sound := by
  by_cases st : sl.st = .waitRenumTimer
  · have off := h.silent (by simp [st]) (by simp [st]) (by simp [st])
    by_cases running : p.tickUs < sl.renumTimer.toNat
    · rw [onTick_running st running]; simp [Slave.Sound, st, off, h.persisted]
    · rw [onTick_elapsed st (Nat.not_lt.1 running)]; simp [Slave.Sound, off, h.persisted]
  · rw [onTick_ignored p f st]; exact h

/-- Settles O24, one column of the table of handlers after the other. -/
theorem eventKeepsSlaveSound : Obligations.EventKeepsSlaveSound := by
  intro p e sl f h
  cases e with
  | brk => exact onBreak_sound h
  | rx b => exact onRx_sound p b f h
  | txe => exact onTxe_sound p f h
  | tick => exact onTick_sound p f h

/-! ## What a slave keeps -/

/-- What only the commit of a renumber changes: the addresses, and what a slave is made with, its identifiers and its
device's catalog (10 R27, R32, U18). -/
def Slave.kept (sl : Slave) : Addr × Addr × Word16 × Word16 × HwRev × Vector SlotKind 8 :=
  (sl.ownAddr, sl.eepromAddr, sl.devType, sl.fwVer, sl.hwRev, sl.dev.catalog)

/-- The last good echo of a confirmation: the event of the commit (45 R326). -/
def Slave.Commits (sl : Slave) (e : Event) : Prop := sl.st = .txRenumConf ∧ sl.idx = 6 ∧ e = .rx sl.lastTx

theorem onBreak_kept (sl : Slave) : sl.onBreak.kept = sl.kept := by
  unfold Slave.onBreak
  split <;> rfl

theorem classifyHeader_kept (cls : MsgClass) (sl : Slave) : (classifyHeader cls sl).kept = sl.kept := by
  cases kind : sl.dev.kind cls with
  | ignore => rw [classifyHeader_ignore kind]; rfl
  | receive n => rw [classifyHeader_receive kind]; rfl
  | transmit n => rw [classifyHeader_transmit kind]; rfl

theorem rxHeaderCrc_kept (p : Params) (b : Byte) (sl : Slave) : (rxHeaderCrc p b sl).kept = sl.kept := by
  simp only [rxHeaderCrc]
  split
  · rfl
  · split
    · rfl
    · split
      · rfl
      · exact classifyHeader_kept _ _

theorem rxPayload_kept (p : Params) (b : Byte) (sl : Slave) : (rxPayload p b sl).kept = sl.kept := by
  simp only [rxPayload]
  split <;> rfl

theorem rxRequest_kept (p : Params) (b : Byte) (sl : Slave) : (rxRequest p b sl).kept = sl.kept := by
  simp only [rxRequest]
  split <;> rfl

theorem rxPayloadCrc_kept (p : Params) (b : Byte) (sl : Slave) : (rxPayloadCrc p b sl).kept = sl.kept := by
  simp only [rxPayloadCrc]
  split <;> rfl

theorem rxRequestCrc_kept (p : Params) (b : Byte) (sl : Slave) (f : Free) :
    (rxRequestCrc p b sl f).slave.kept = sl.kept := by
  simp only [rxRequestCrc]
  repeat' split
  all_goals rfl

/-- Only the commit changes an address. -/
theorem rxRenumConf_kept (p : Params) (b : Byte) {sl : Slave} (f : Free) (st : sl.st = .txRenumConf)
    (stays : ¬sl.Commits (.rx b)) : (rxRenumConf p b sl f).slave.kept = sl.kept := by
  simp only [rxRenumConf]
  split
  · rfl
  · rename_i heard
    have notDone : sl.idx ≠ 6 := fun six => stays ⟨st, six, by rw [not_not.1 heard]⟩
    rw [if_neg notDone]
    split <;> rfl

theorem onRx_kept (p : Params) (b : Byte) {sl : Slave} (f : Free) (stays : ¬sl.Commits (.rx b)) :
    (onRx p b sl f).slave.kept = sl.kept := by
  cases st : sl.st with
  | rxHeader =>
    by_cases first : sl.idx = 0
    · rw [onRx_header st first]; rfl
    · rw [onRx_headerCrc st first]; exact rxHeaderCrc_kept p b sl
  | rxMsg => rw [onRx_rxMsg st]; exact rxPayload_kept p b sl
  | rxCtrlMsg => rw [onRx_rxCtrlMsg st]; exact rxRequest_kept p b sl
  | checkRxCrc => rw [onRx_checkRxCrc st]; exact rxPayloadCrc_kept p b sl
  | checkRxCtrlCrc => rw [onRx_checkRxCtrlCrc st]; exact rxRequestCrc_kept p b sl f
  | waitRenumTimer => rw [onRx_waitRenumTimer st]; rfl
  | txRenumConf => simp only [onRx, st]; exact rxRenumConf_kept p b f st stays
  | _ => rw [onRx_ignored p b f (by simp [st])]; rfl

theorem fetchByte_catalog (cls : MsgClass) (f : Free) (d : Device) : (d.fetchByte cls f).2.2.catalog = d.catalog := by
  simp only [Device.fetchByte]
  repeat' split
  all_goals rfl

theorem txPayload_kept (p : Params) (sl : Slave) (f : Free) : (txPayload p sl f).slave.kept = sl.kept := by
  have catalog := fetchByte_catalog sl.msgClass f sl.dev
  simp only [txPayload]
  split <;> simp [Slave.kept, catalog]

theorem onTxe_kept (p : Params) (sl : Slave) (f : Free) : (onTxe p sl f).slave.kept = sl.kept := by
  cases st : sl.st with
  | txAck => rw [onTxe_txAck st]; rfl
  | txMsg => simp only [onTxe, st]; exact txPayload_kept p sl f
  | txCtrlResp =>
    by_cases more : sl.idx.toNat < 5
    · rw [onTxe_txCtrlResp_byte st more]; rfl
    · rw [onTxe_txCtrlResp_crc st (Nat.not_lt.1 more)]; rfl
  | _ => rw [onTxe_ignored p f (by simp [st]) (by simp [st]) (by simp [st])]; rfl

theorem onTick_kept (p : Params) (sl : Slave) (f : Free) : (onTick p sl f).slave.kept = sl.kept := by
  by_cases st : sl.st = .waitRenumTimer
  · by_cases running : p.tickUs < sl.renumTimer.toNat
    · rw [onTick_running st running]; rfl
    · rw [onTick_elapsed st (Nat.not_lt.1 running)]; rfl
  · rw [onTick_ignored p f st]; rfl

theorem onEvent_kept (p : Params) {e : Event} {sl : Slave} (f : Free) (stays : ¬sl.Commits e) :
    (onEvent p e sl f).slave.kept = sl.kept := by
  cases e with
  | brk => exact onBreak_kept sl
  | rx b => exact onRx_kept p b f stays
  | txe => exact onTxe_kept p sl f
  | tick => exact onTick_kept p sl f

/-- What the commit writes. -/
theorem onEvent_commit (p : Params) {e : Event} {sl : Slave} (f : Free) (commits : sl.Commits e) :
    onEvent p e sl f = .quiet { sl with
      st := .waitBreak, ownAddr := sl.renumTarget, eepromAddr := sl.renumTarget
      dev := { sl.dev with calls := .persistAddress sl.renumTarget :: sl.dev.calls } } f := by
  obtain ⟨st, six, rfl⟩ := commits
  exact onRx_confirm_commit st rfl six

/-- What a slave is made with: its identifiers and its device's catalog. -/
def Slave.made (sl : Slave) : Word16 × Word16 × HwRev × Vector SlotKind 8 :=
  (sl.devType, sl.fwVer, sl.hwRev, sl.dev.catalog)

/-- No event, the commit included, changes what a slave is made with. -/
theorem onEvent_made (p : Params) (e : Event) (sl : Slave) (f : Free) : (onEvent p e sl f).slave.made = sl.made := by
  by_cases commits : sl.Commits e
  · rw [onEvent_commit p f commits]; rfl
  · have kept := onEvent_kept p f commits
    simp only [Slave.kept, Prod.mk.injEq] at kept
    obtain ⟨-, -, made⟩ := kept
    simpa only [Slave.made, Prod.mk.injEq] using made

/-! ## Who transmits -/

/-- A received byte makes a slave transmit only as the good echo of its confirmation (45 R325). -/
theorem onRx_tx {p : Params} {b : Byte} {sl : Slave} {f : Free} {x : Byte} (sent : (onRx p b sl f).tx = some x) :
    b = sl.lastTx ∧ sl.st = .txRenumConf := by
  cases st : sl.st with
  | txRenumConf =>
    refine ⟨?_, rfl⟩
    by_contra heard
    rw [onRx_confirm_mismatch st heard] at sent
    cases sent
  | checkRxCtrlCrc =>
    have silent : (rxRequestCrc p b sl f).tx = none := by
      simp only [rxRequestCrc]
      repeat' split
      all_goals rfl
    rw [onRx_checkRxCtrlCrc st, silent] at sent
    cases sent
  | _ =>
    simp only [onRx, st] at sent
    cases sent

/-- Settles O25: the addresses by the commit alone, a byte by the column of its event, the rest never. -/
theorem whatASlaveNeverDoes : Obligations.WhatASlaveNeverDoes := by
  intro p e sl f
  have made := onEvent_made p e sl f
  simp only [Slave.made, Prod.mk.injEq] at made
  refine ⟨fun moved => ?address, fun x sent => ?transmits, made⟩
  case address =>
    by_cases commits : sl.Commits e
    · rw [onEvent_commit p f commits]
      obtain ⟨st, six, echo⟩ := commits
      exact ⟨st, six, echo, rfl, rfl⟩
    · have kept := onEvent_kept p f commits
      simp only [Slave.kept, Prod.mk.injEq] at kept
      obtain ⟨own, persisted, -⟩ := kept
      exact absurd moved (by simp [own, persisted])
  case transmits =>
    cases e with
    | brk => cases sent
    | rx b =>
      obtain ⟨rfl, st⟩ := onRx_tx sent
      exact .inr (.inr ⟨rfl, st⟩)
    | txe =>
      refine .inl ⟨rfl, ?_⟩
      by_contra deaf
      simp only [not_or] at deaf
      obtain ⟨notAck, notMsg, notResp⟩ := deaf
      rw [onEvent_txe, onTxe_ignored p f notAck notMsg notResp] at sent
      cases sent
    | tick =>
      refine .inr (.inl ⟨rfl, ?_⟩)
      by_cases st : sl.st = .waitRenumTimer
      · refine ⟨st, ?_⟩
        by_contra running
        rw [onEvent_tick, onTick_running st (Nat.not_le.1 running)] at sent
        cases sent
      · rw [onEvent_tick, onTick_ignored p f st] at sent
        cases sent

/-! ## Silent reversion (60 R347) -/

/-- What a failure may write: the state, the running CRC, the class; the device hears at most the question it declined. -/
def Slave.Reverted (sl : Slave) (f : Free) (r : Reaction) : Prop :=
  r.free = f ∧
  r.slave = { sl with st := .waitBreak, crc := r.slave.crc, msgClass := r.slave.msgClass, dev := r.slave.dev } ∧
  (r.slave.dev = sl.dev ∨
    sl.dev.kind (headerClass sl.hdr) = .ignore ∧
    r.slave.dev = { sl.dev with pos := 0, calls := .initTransfer (headerClass sl.hdr) :: sl.dev.calls })

/-- A reversion that tells the device nothing. -/
theorem reverted_quiet (sl : Slave) (crc : Byte) (f : Free) :
    sl.Reverted f (.quiet { sl with st := .waitBreak, crc := crc } f) :=
  ⟨rfl, rfl, .inl rfl⟩

theorem rxHeaderCrc_reverted {p : Params} {b : Byte} {sl : Slave} (f : Free)
    (back : (rxHeaderCrc p b sl).st = .waitBreak) : sl.Reverted f (.quiet (rxHeaderCrc p b sl) f) := by
  by_cases foreign : crc8 p sl.crc b ≠ 0 ∨ headerAddr sl.hdr ≠ sl.ownAddr
  · rw [rxHeaderCrc_foreign foreign]; exact reverted_quiet sl _ f
  · obtain ⟨good, own⟩ : crc8 p sl.crc b = 0 ∧ headerAddr sl.hdr = sl.ownAddr := by simpa using foreign
    by_cases cmd : headerClass sl.hdr = Config.cmdClass
    · rw [rxHeaderCrc_command good own cmd] at back
      cases back
    · rw [rxHeaderCrc_data good own cmd] at back ⊢
      cases kind : sl.dev.kind (headerClass sl.hdr) with
      | receive n => rw [classifyHeader_receive (sl := { sl with crc := 0 }) kind] at back; cases back
      | transmit n => rw [classifyHeader_transmit (sl := { sl with crc := 0 }) kind] at back; cases back
      | ignore =>
        rw [classifyHeader_ignore (sl := { sl with crc := 0 }) kind]
        exact ⟨rfl, rfl, .inr ⟨kind, rfl⟩⟩

theorem rxRequestCrc_reverted {p : Params} {b : Byte} {sl : Slave} {f : Free}
    (back : (rxRequestCrc p b sl f).slave.st = .waitBreak) : sl.Reverted f (rxRequestCrc p b sl f) := by
  simp only [rxRequestCrc] at back ⊢
  split at back
  · rename_i bad
    rw [if_pos bad]; exact reverted_quiet sl _ f
  · rename_i good
    rw [if_neg good]
    split at back
    · cases back
    · split at back
      · cases back
      · split at back
        · cases back
        · rename_i notProbe notRenum notInquire
          rw [if_neg notProbe, if_neg notRenum, if_neg notInquire]
          exact reverted_quiet sl _ f

theorem onRx_reverted {p : Params} {b : Byte} {sl : Slave} {f : Free} (outside : sl.st ≠ .waitBreak)
    (back : (onRx p b sl f).slave.st = .waitBreak) (silent : (onRx p b sl f).tx = none)
    (stays : ¬sl.Commits (.rx b)) : sl.Reverted f (onRx p b sl f) := by
  cases st : sl.st with
  | waitBreak => exact absurd st outside
  | rxHeader =>
    by_cases first : sl.idx = 0
    · rw [onRx_header st first, quiet_slave, rxHeaderByte, st] at back
      cases back
    · rw [onRx_headerCrc st first] at back ⊢
      exact rxHeaderCrc_reverted f back
  | rxMsg =>
    rw [onRx_rxMsg st, quiet_slave, rxPayload] at back
    simp only [apply_ite Slave.st, st] at back
    split at back <;> cases back
  | rxCtrlMsg =>
    rw [onRx_rxCtrlMsg st, quiet_slave, rxRequest] at back
    simp only [apply_ite Slave.st, st] at back
    split at back <;> cases back
  | checkRxCrc =>
    rw [onRx_checkRxCrc st] at back ⊢
    by_cases good : crc8 p sl.crc b = 0
    · rw [rxPayloadCrc_good good] at back; cases back
    · rw [rxPayloadCrc_bad good]; exact reverted_quiet sl _ f
  | checkRxCtrlCrc =>
    rw [onRx_checkRxCtrlCrc st] at back ⊢
    exact rxRequestCrc_reverted back
  | waitRenumTimer => rw [onRx_waitRenumTimer st]; exact reverted_quiet sl sl.crc f
  | txRenumConf =>
    by_cases heard : b = sl.lastTx
    · have notDone : sl.idx ≠ 6 := fun six => stays ⟨st, six, by rw [heard]⟩
      simp only [onRx, st, rxRenumConf, heard, ne_eq, not_true_eq_false, if_false, notDone] at silent
      split at silent <;> cases silent
    · rw [onRx_confirm_mismatch st heard]; exact reverted_quiet sl sl.crc f
  | _ =>
    rw [onRx_ignored p b f (by simp [st]), quiet_slave] at back
    exact absurd back outside

/-- Settles O23: only a received byte can revert a slave without a byte sent. -/
theorem failureIsSilentReversion : Obligations.FailureIsSilentReversion := by
  intro p e sl f outside back silent stays
  cases e with
  | brk => rw [onEvent_brk, quiet_slave, onBreak_st] at back; cases back
  | rx b => exact onRx_reverted outside back silent stays
  | txe =>
    rw [onEvent_txe] at back silent
    cases st : sl.st with
    | txAck => rw [onTxe_txAck st] at silent; cases silent
    | txMsg =>
      simp only [onTxe, st, txPayload] at silent
      split at silent <;> cases silent
    | txCtrlResp =>
      simp only [onTxe, st, txResponse] at silent
      split at silent <;> cases silent
    | _ =>
      rw [onTxe_ignored p f (by simp [st]) (by simp [st]) (by simp [st])] at back
      exact absurd back outside
  | tick =>
    rw [onEvent_tick] at back silent
    by_cases st : sl.st = .waitRenumTimer
    · by_cases running : p.tickUs < sl.renumTimer.toNat
      · rw [onTick_running st running, quiet_slave] at back
        exact absurd back outside
      · rw [onTick_elapsed st (Nat.not_lt.1 running)] at silent
        cases silent
    · rw [onTick_ignored p f st] at back
      exact absurd back outside

end Sys2Proof.Machine
end

section
/-! SUPPORT. One slave reacting among others, the quiet bus, and the inputs that reach one agent (44 R261, 60 R352, 70 R390,
R409). -/

namespace Sys2Proof.Machine

/-! ## A handler that does something at one place -/

/-- Where every other slave is left alone, only the one in place `k` changes, draws and transmits. -/
theorem reactAll_at (h : Nat → Slave → Free → Reaction) {x : Slave} : ∀ {l : List Slave} {k : Nat} (i : Nat) (f : Free),
    l[k]? = some x → (∀ j y g, l[j]? = some y → j ≠ k → h (i + j) y g = .quiet y g) →
      reactAll h i l f = (l.set k (h (i + k) x f).slave, (h (i + k) x f).free,
        (h (i + k) x f).tx.toList.map fun b => (i + k, b))
  | [], _, _, _, at_k, _ => by simp at at_k
  | y :: l, 0, i, f, at_k, others => by
    obtain rfl : y = x := by simpa using at_k
    have rest : ∀ g, reactAll h (i + 1) l g = (l, g, []) := fun g =>
      reactAll_at_none h (i + 1) g fun j z g' hz => by
        have := others (j + 1) z g' (by simpa using hz) (by omega)
        rwa [show i + (j + 1) = i + 1 + j by omega] at this
    simp [reactAll, rest]
  | y :: l, k + 1, i, f, at_k, others => by
    have head := others 0 y f (by simp) (by omega)
    have tail := reactAll_at h (l := l) (k := k) (i + 1) f (by simpa using at_k) fun j z g hz hj => by
      have := others (j + 1) z g (by simpa using hz) (by omega)
      rwa [show i + (j + 1) = i + 1 + j by omega] at this
    rw [Nat.add_zero] at head
    simp only [reactAll, head, quiet_slave, quiet_free, quiet_tx, tail, List.set_cons_succ, Option.toList_none, List.map_nil,
      List.nil_append, show i + 1 + k = i + (k + 1) by omega]
where
  /-- A handler that leaves every place alone. -/
  reactAll_at_none (h : Nat → Slave → Free → Reaction) : ∀ {l : List Slave} (i : Nat) (f : Free),
      (∀ j y g, l[j]? = some y → h (i + j) y g = .quiet y g) → reactAll h i l f = (l, f, [])
    | [], _, _, _ => rfl
    | y :: l, i, f, all => by
      have head := all 0 y f (by simp)
      have tail := reactAll_at_none h (l := l) (i + 1) f fun j z g hz => by
        have := all (j + 1) z g (by simpa using hz)
        rwa [show i + (j + 1) = i + 1 + j by omega] at this
      rw [Nat.add_zero] at head
      simp [reactAll, head, tail]

/-- The same for the system. -/
theorem react_at {s : State} {k : Nat} {x : Slave} (h : Nat → Slave → Free → Reaction) (at_k : s.slaves[k]? = some x)
    (others : ∀ j y g, s.slaves[j]? = some y → j ≠ k → h j y g = .quiet y g) :
    s.react h = { s with
      slaves := s.slaves.set k (h k x s.free).slave
      free := (h k x s.free).free
      bus := { s.bus with inFlight := s.bus.inFlight ++ (h k x s.free).tx.toList.map fun b => (k, b) } } := by
  have all := reactAll_at h 0 s.free at_k (by simpa using others)
  simp only [State.react, all, Nat.zero_add]

/-- A handler that leaves every slave alone does nothing. -/
theorem react_quiet {s : State} (h : Nat → Slave → Free → Reaction)
    (all : ∀ j, ∀ y ∈ s.slaves, ∀ g, h j y g = .quiet y g) : s.react h = s := by
  simp [State.react, reactAll_quiet h _ 0 s.free all]

/-! ## The quiet bus (70 R409) -/

/-- Where no renumber timer runs, a tick does nothing. -/
theorem tickAll_idle {s : State} (h : ∀ sl ∈ s.slaves, sl.st ≠ .waitRenumTimer) : tickAll s = s :=
  react_quiet _ fun _ y hy _ => onTick_ignored s.params _ (h y hy)

/-- A slot nobody uses is a tick. -/
theorem slot_none {s : State} (ht : ∀ sl ∈ s.slaves, sl.txEn = false) (hf : s.bus.inFlight = []) :
    slot none s = tickAll s := by
  simp [slot, serveTxe_idle ht, Bus.pending, hf, firstBytes, carry]

/-- Settles O5: the step is a slot that nobody uses, and no timer runs. -/
theorem quiescentStateStays : Obligations.QuiescentStateStays := by
  intro s ⟨idle, noBreak, empty, still⟩ noInput
  have turn : busTurn s = s := by
    rw [busTurn, noBreak, if_neg (by simp), slot_none (fun sl h => (still sl h).1) empty,
      tickAll_idle fun sl h => (still sl h).2.1]
  simp only [step, idle, noInput, turn]

/-! ## One event (44 R261, 60 R352) -/

/-- Only the named slave handles an event. -/
theorem eventAt_eq {s : State} {k : Nat} {sl : Slave} (e : Event) (at_k : s.slaves[k]? = some sl) :
    eventAt k e s = { s with
      slaves := s.slaves.set k (eventTo s e k sl s.free).slave
      free := (eventTo s e k sl s.free).free
      bus := { s.bus with
        inFlight := s.bus.inFlight ++ (eventTo s e k sl s.free).tx.toList.map fun b => (k, b) } } := by
  rw [eventAt, react_at _ at_k (fun j y g _ other => by rw [if_neg other]), if_pos rfl]

theorem holds_iff (b : Bus) (k : Nat) : b.holds k = true ↔ ∃ x ∈ b.inFlight, x.1 = k := by
  simp [Bus.holds]

/-- An event is handled, but a TXE where the slave did not enable it or its transmitter holds a byte. -/
theorem eventTo_eq {s : State} {e : Event} {k : Nat} {sl : Slave} (f : Free)
    (occurs : e = .txe → sl.txEn = true ∧ ∀ x ∈ s.bus.inFlight, x.1 ≠ k) :
    eventTo s e k sl f = onEvent s.params e sl f := by
  cases e with
  | txe =>
    obtain ⟨on, free⟩ := occurs rfl
    have notHeld : s.bus.holds k = false := by
      rw [← Bool.not_eq_true, holds_iff]
      exact fun ⟨x, hx, at_k⟩ => free x hx at_k
    simp [eventTo, txeIfFree, on, notHeld, onEvent]
  | _ => rfl

theorem eventTo_txe_quiet {s : State} {k : Nat} {sl : Slave} (f : Free)
    (cannot : sl.txEn = false ∨ ∃ x ∈ s.bus.inFlight, x.1 = k) : eventTo s .txe k sl f = .quiet sl f := by
  rw [← holds_iff] at cannot
  obtain off | held := cannot
  · simp [eventTo, txeIfFree, off]
  · simp [eventTo, txeIfFree, held]

/-- Settles O6: what the handler does at the one place, and nothing at any other. -/
theorem eventReachesOneSlave : Obligations.EventReachesOneSlave := by
  intro s k e sl rest idle first at_k
  rw [step_input idle first, takeInput, eventAt_eq (s := { s with inputs := rest }) e at_k]
  refine ⟨fun occurs => ?_, fun isTxe cannot => ?_⟩
  · rw [eventTo_eq (s := { s with inputs := rest }) _ occurs]
  · subst isTxe
    obtain ⟨inRange, here⟩ := List.getElem?_eq_some_iff.1 at_k
    rw [eventTo_txe_quiet (s := { s with inputs := rest }) _ cannot]
    simp [← here]

/-! ## One reset (70 R390 to R392) -/

/-- Settles O7: a reset slave comes up as after reset with what it kept, the master as after reset. -/
theorem resetOfAnAgent : Obligations.ResetOfAnAgent := by
  refine ⟨fun s k sl rest idle first at_k => ?slave, fun s rest idle first => ?master⟩
  case slave =>
    refine ⟨sl.restart, ?_, rfl, rfl, rfl, rfl, rfl, rfl, rfl, rfl⟩
    simp [step_input idle first, takeInput, resetSlaveAt, List.modify_eq_set_getElem?, at_k]
  case master =>
    refine ⟨Master.afterReset s.params, step_input idle first, rfl, rfl, rfl, fun a => ?_, rfl, rfl⟩
    rw [masterAfterReset_decl, blank_valid]

/-! ## Operations refused or turned away -/

theorem masterOp_notInitialized {s : State} (bad : Option Refusal) (body : State → ResultCode × State)
    (off : s.master.initialized = false) : masterOp bad body s = .next (report .notInitialized s) := if_pos off

/-- Settles O34: the first test of the prologue, which AUTO_CONFIG makes too. -/
theorem notInitializedComesFirst : Obligations.NotInitializedComesFirst := by
  intro i s isPublic off
  cases i with
  | sendMessage a c payload => exact masterOp_notInitialized _ (sendBody a c payload) off
  | receiveMessage a c len buf => exact masterOp_notInitialized _ (receiveBody a c len buf) off
  | sendCmdMessage a request out => exact masterOp_notInitialized none (commandBody a request out) off
  | defineDevices decls => exact masterOp_notInitialized _ (defineDevicesBody decls) off
  | defineMirroring defs => exact masterOp_notInitialized _ (defineMirroringBody defs) off
  | mirrorTick => exact masterOp_notInitialized _ mirrorTickBody off
  | renumId old new => exact masterOp_notInitialized none (renumBody old new) off
  | checkConfig => exact masterOp_notInitialized none checkConfigBody off
  | autoConfig => exact if_pos off
  | _ => cases isPublic

/-- Settles O36: none of the six meanings looks at the state. -/
theorem reservedSelectorsAreRefused : Obligations.ReservedSelectorsAreRefused := by
  intro s
  exact ⟨rfl, rfl, rfl, rfl, rfl, rfl⟩

end Sys2Proof.Machine
end

section
/-! SUPPORT. What an operation can do, said once for each family: to the line (`LineMove`), to the buffers of a receiving
operation (`StoreMove`), to AUTO_CONFIG's tables (`AutoMove`); and the ways an instruction can answer a next state (`Ran`). -/

namespace Sys2Proof.Machine

/-! ## The line -/

/-- What every instruction keeps of the line: the slaves go on by events of their own, bytes in flight belong to slaves that
exist, and no break is left on the line. -/
structure LineMove (s t : State) : Prop where
  params : t.params = s.params
  slaves : List.Forall₂ (Evolves s.params) s.slaves t.slaves
  inFlight : (∀ x ∈ s.bus.inFlight, x.1 < s.slaves.length) → ∀ x ∈ t.bus.inFlight, x.1 < t.slaves.length
  breakOn : s.bus.breakOn = false → t.bus.breakOn = false

/-- A change away from the line. -/
theorem LineMove.of_eq {s t : State} (params : t.params = s.params) (slaves : t.slaves = s.slaves)
    (bus : t.bus = s.bus) : LineMove s t where
  params := params
  slaves := slaves ▸ evolves_all_refl _ _
  inFlight := by rw [slaves, bus]; exact id
  breakOn := by rw [bus]; exact id

theorem LineMove.refl (s : State) : LineMove s s := .of_eq rfl rfl rfl

theorem LineMove.trans {s t u : State} (h : LineMove s t) (k : LineMove t u) : LineMove s u where
  params := k.params.trans h.params
  slaves := evolves_all_trans _ h.slaves (h.params ▸ k.slaves)
  inFlight := k.inFlight ∘ h.inFlight
  breakOn := k.breakOn ∘ h.breakOn

theorem BusMove.line {s t : State} (h : BusMove s t) : LineMove s t := ⟨h.params, h.slaves, h.inFlight, h.breakOn⟩

theorem ExchangeMove.line {s t : State} (h : ExchangeMove s t) : LineMove s t :=
  ⟨h.params, h.slaves, h.inFlight, h.breakOn⟩

theorem updMaster_line (g : Master → Master) (s : State) : LineMove s (s.updMaster g) := .of_eq rfl rfl rfl

theorem lockMutex_line (s : State) : LineMove s (lockMutex s) := updMaster_line _ s
theorem unlockMutex_line (s : State) : LineMove s (unlockMutex s) := updMaster_line _ s
theorem report_line (r : ResultCode) (s : State) : LineMove s (report r s) := updMaster_line _ s
theorem setFailed_line (a : Addr) (s : State) : LineMove s (setFailed a s) := updMaster_line _ s

/-! ## Buffers -/

/-- The addresses of a buffer of `n` bytes. -/
def InBuf (buf : BufRef) (n x : Nat) : Prop := buf.toNat ≤ x ∧ x < buf.toNat + n

/-- What exchanges and stores to the addresses `R` can do. -/
structure StoreMove (R : Nat → Prop) (s t : State) : Prop extends LineMove s t where
  inputs : t.inputs = s.inputs
  codecOut : t.codecOut = s.codecOut
  master : t.master = { s.master with txbuf := t.master.txbuf, rxbuf := t.master.rxbuf, n := t.master.n }
  count : s.master.n = s.master.rxbuf.length → t.master.n = t.master.rxbuf.length
  wf : Memory.wf s.mem = true → Memory.wf t.mem = true
  read : Memory.wf s.mem = true → ∀ x, ¬R x → Memory.read t.mem x = Memory.read s.mem x

theorem ExchangeMove.stores {R : Nat → Prop} {s t : State} (h : ExchangeMove s t) : StoreMove R s t where
  toLineMove := h.line
  inputs := h.inputs
  codecOut := h.codecOut
  master := h.master
  count := h.count
  wf := by rw [h.mem]; exact id
  read := by rw [h.mem]; exact fun _ _ _ => rfl

theorem StoreMove.refl (R : Nat → Prop) (s : State) : StoreMove R s s := (ExchangeMove.refl s).stores

theorem StoreMove.trans {R : Nat → Prop} {s t u : State} (h : StoreMove R s t) (k : StoreMove R t u) :
    StoreMove R s u where
  toLineMove := h.toLineMove.trans k.toLineMove
  inputs := k.inputs.trans h.inputs
  codecOut := k.codecOut.trans h.codecOut
  master := by rw [k.master, h.master]
  count := k.count ∘ h.count
  wf := k.wf ∘ h.wf
  read := fun hs x hx => (k.read (h.wf hs) x hx).trans (h.read hs x hx)

theorem StoreMove.mono {R Q : Nat → Prop} {s t : State} (h : StoreMove R s t) (le : ∀ x, R x → Q x) :
    StoreMove Q s t :=
  { h with read := fun hs x hx => h.read hs x fun hr => hx (le x hr) }

/-- Storing at most as many bytes as the buffer holds changes no byte outside it. -/
theorem read_store_outside {buf : BufRef} {n : Nat} {bytes : List Byte} (fits : bytes.length ≤ n) {m : Memory}
    (hm : Memory.wf m = true) {x : Nat} (outside : ¬InBuf buf n x) :
    Memory.read (Memory.store buf.toNat bytes m) x = Memory.read m x := by
  rw [read_store bytes buf.toNat m hm x, if_neg fun inside => outside ⟨inside.1, by omega⟩]

theorem storeBuf_move {buf : BufRef} {n : Nat} {bytes : List Byte} (fits : bytes.length ≤ n) (s : State) :
    StoreMove (InBuf buf n) s (storeBuf buf bytes s) where
  toLineMove := .of_eq rfl rfl rfl
  inputs := rfl
  codecOut := rfl
  master := rfl
  count := id
  wf := store_wf _ _ _
  read := fun hs _ => read_store_outside fits hs

theorem spoilBuf_move (buf : BufRef) (n : Nat) (s : State) : StoreMove (InBuf buf n) s (spoilBuf buf n s) where
  toLineMove := .of_eq rfl rfl rfl
  inputs := rfl
  codecOut := rfl
  master := rfl
  count := id
  wf := store_wf _ _ _
  read := fun hs _ => read_store_outside (drawList_length n s.free).le hs

theorem receiveBody_move (a : Addr) (c : MsgClass) (len : Byte) (buf : BufRef) (s : State) :
    StoreMove (InBuf buf len.toNat) s (receiveBody a c len buf s).2 := by
  have exchanged := (exchange_move (buildReadRequest s.params a c) (receiveCount s.params len.toNat) s).stores
    (R := InBuf buf len.toNat)
  simp only [receiveBody]
  split
  · exact exchanged.trans (storeBuf_move (by simp) _)
  · exact exchanged.trans (spoilBuf_move _ _ _)

theorem commandBody_move (a : Addr) (request : Vector Byte 5) (out : BufRef) (s : State) :
    StoreMove (InBuf out 5) s (commandBody a request out s).2 := by
  have exchanged := (command_move a request s).stores (R := InBuf out 5)
  simp only [commandBody]
  split
  · exact exchanged.trans (storeBuf_move (by simp) _)
  · exact exchanged.trans (spoilBuf_move _ _ _)

/-- The registers a storing operation leaves alone, one by one. -/
theorem StoreMove.registers {R : Nat → Prop} {s t : State} (h : StoreMove R s t) :
    t.master.initialized = s.master.initialized ∧ t.master.transport = s.master.transport ∧
    t.master.mutexDepth = s.master.mutexDepth ∧ t.master.timeoutUs = s.master.timeoutUs ∧
    t.master.dir = s.master.dir ∧ t.master.mirror = s.master.mirror ∧ t.master.failedAddress = s.master.failedAddress ∧
    t.master.autoPasses = s.master.autoPasses := by
  rw [h.master]
  exact ⟨rfl, rfl, rfl, rfl, rfl, rfl, rfl, rfl⟩

/-! ## The transfers of a mirror tick -/

/-- The addresses an entry's transfer may write: its buffer, if its slot is read (42 R188). -/
def MirrorEntry.Writes (m : Master) (e : MirrorEntry) (x : Nat) : Prop :=
  (m.slotOf e.addr e.slot).dir = .s2m ∧ InBuf e.buf (m.slotOf e.addr e.slot).len.toNat x

/-- The addresses the transfers of the entries that fire may write. -/
def FiringWrites (m : Master) (es : List MirrorEntry) (x : Nat) : Prop :=
  ∃ e ∈ es, fires e = true ∧ e.Writes m x

theorem mirrorTransfer_move (e : MirrorEntry) (s : State) :
    StoreMove (e.Writes s.master) s (mirrorTransfer e s).2 := by
  simp only [mirrorTransfer]
  cases dir : (s.master.slotOf e.addr e.slot).dir with
  | m2s => exact (sendBody_move _ _ _ s).stores
  | s2m => exact (receiveBody_move _ _ _ _ s).mono fun x hx => ⟨dir, hx⟩

theorem slotOf_of_dir {m k : Master} (same : k.dir = m.dir) (a : Addr) (c : MsgClass) : k.slotOf a c = m.slotOf a c := by
  simp only [Master.slotOf, Master.decl, same]

theorem firingWrites_of_dir {m k : Master} (same : k.dir = m.dir) (es : List MirrorEntry) :
    FiringWrites k es = FiringWrites m es := by
  funext x
  simp only [FiringWrites, MirrorEntry.Writes, slotOf_of_dir same]

/-- `failed_address` is not read by any exchange. -/
theorem StoreMove.setFailed {R : Nat → Prop} {s t : State} (h : StoreMove R s t) (a : Addr) :
    StoreMove R (setFailed a s) (setFailed a t) :=
  { h with
    toLineMove := ⟨h.params, h.slaves, h.inFlight, h.breakOn⟩
    master := by simp only [setFailed_master]; rw [h.master] }

theorem setFailed_setFailed (a b : Addr) (s : State) : setFailed a (setFailed b s) = setFailed a s := rfl

theorem setFailed_self (s : State) : setFailed s.master.failedAddress s = s := rfl

/-- Keeping the first failure writes `failed_address` at most. -/
theorem noteFailure_state (first : ResultCode) (a : Addr) (out : ResultCode × State) :
    setFailed (noteFailure first a out).2.master.failedAddress out.2 = (noteFailure first a out).2 := by
  unfold noteFailure
  split <;> rfl

/-- The transfers of a mirror tick write the exchange buffers, `failed_address`, and memory where firing read entries
have their buffers. -/
theorem mirrorPass_move : ∀ (es : List MirrorEntry) (first : ResultCode) (s : State),
    StoreMove (FiringWrites s.master es)
      (setFailed (mirrorPass es first s).2.master.failedAddress s) (mirrorPass es first s).2
  | [], _, s => .refl _ _
  | e :: es, first, s => by
    by_cases firing : fires e = true
    · simp only [mirrorPass, if_pos firing]
      generalize noted : noteFailure first e.addr (mirrorTransfer e s) = out
      have transfer := mirrorTransfer_move e s
      have state : setFailed out.2.master.failedAddress (mirrorTransfer e s).2 = out.2 :=
        noted ▸ noteFailure_state first e.addr _
      have dir : out.2.master.dir = s.master.dir := by
        rw [← state, setFailed_master]
        exact transfer.registers.2.2.2.2.1
      have rest := mirrorPass_move es out.1 out.2
      have here := transfer.setFailed (mirrorPass es out.1 out.2).2.master.failedAddress
      rw [← setFailed_setFailed _ out.2.master.failedAddress (mirrorTransfer e s).2, state] at here
      refine (here.mono fun x hx => ⟨e, by simp, firing, hx⟩).trans (rest.mono fun x hx => ?_)
      rw [firingWrites_of_dir dir] at hx
      obtain ⟨d, hd, fired, writes⟩ := hx
      exact ⟨d, by simp [hd], fired, writes⟩
    · simp only [mirrorPass, if_neg firing]
      exact (mirrorPass_move es first s).mono fun x ⟨d, hd, fired, writes⟩ => ⟨d, by simp [hd], fired, writes⟩

/-! ## CHECK_CONFIG -/

theorem ExchangeMove.setFailed {s t : State} (h : ExchangeMove s t) (a : Addr) :
    ExchangeMove (setFailed a s) (setFailed a t) :=
  { h with master := by simp only [setFailed_master]; rw [h.master] }

theorem checkAddrs_move : ∀ (as : List Addr) (s : State),
    ExchangeMove (setFailed (checkAddrs as s).2.master.failedAddress s) (checkAddrs as s).2
  | [], s => .refl s
  | a :: as, s => by
    simp only [checkAddrs]
    have asked := probeInquire_move a s
    split
    · split
      · exact asked.setFailed a
      · split
        · exact asked.setFailed a
        · exact (asked.setFailed _).trans (checkAddrs_move as _)
    · exact checkAddrs_move as s

/-! ## The codes of an exchange (42 R185) -/

/-- What a command exchange can return. -/
def commandCodes : List ResultCode := [.ok, .noResponse, .timeout, .crcError]

theorem countVerdict_codes {n w e : Nat} {r : ResultCode} (h : countVerdict n w e = some r) :
    r = .noResponse ∨ r = .timeout := by
  unfold countVerdict at h
  split at h
  · cases h; exact .inl rfl
  · split at h
    · cases h; exact .inr rfl
    · cases h

theorem replyVerdict_codes (p : Params) (w start e : Nat) (rx : List Byte) :
    replyVerdict p w start e rx ∈ commandCodes := by
  unfold replyVerdict
  split
  · rename_i r counted
    obtain rfl | rfl := countVerdict_codes counted <;> decide
  · split <;> decide

theorem command_codes (a : Addr) (request : Vector Byte 5) (s : State) : (command a request s).1 ∈ commandCodes :=
  replyVerdict_codes _ _ _ _ _

theorem probeInquire_codes (a : Addr) (s : State) : (probeInquire a s).1 ∈ commandCodes := by
  have probe := command_codes a probeRequest s
  have inquire := command_codes a inquireRequest (command a probeRequest s).2.2
  by_cases probed : (command a probeRequest s).1 = .ok
  · simpa only [probeInquire, if_pos probed] using inquire
  · simpa only [probeInquire, if_neg probed] using probe

theorem renumAttempts_codes (old new : Addr) : ∀ (n : Nat) {last : ResultCode} (s : State), last ∈ commandCodes →
    (renumAttempts old new n last s).1 ∈ commandCodes
  | 0, _, _, h => h
  | n + 1, _, s, _ => by
    simp only [renumAttempts]
    split
    · exact List.mem_cons_self
    · exact renumAttempts_codes old new n _ (command_codes old _ s)

theorem renumBody_codes (old new : Addr) (s : State) : (renumBody old new s).1 ∈ commandCodes :=
  renumAttempts_codes old new _ s (by decide)

/-! ## AUTO_CONFIG -/

theorem mem_usableAddrs : ∀ {a : Addr}, a ∈ usableAddrs ↔ Usable a := by decide

/-- What the steps of a pass can do: move the line, write the exchange buffers, the scan tables of usable addresses and the
two flags. -/
structure AutoMove (s t : State) : Prop extends LineMove s t where
  mem : t.mem = s.mem
  inputs : t.inputs = s.inputs
  codecOut : t.codecOut = s.codecOut
  master : t.master = { s.master with
    txbuf := t.master.txbuf, rxbuf := t.master.rxbuf, n := t.master.n
    res := t.master.res, rtype := t.master.rtype, renumbered := t.master.renumbered, swapped := t.master.swapped }
  count : s.master.n = s.master.rxbuf.length → t.master.n = t.master.rxbuf.length
  unusable : ∀ a, ¬Usable a → t.master.resOf a = s.master.resOf a
  sound : (∀ a, (s.master.resOf a).Sound) → ∀ a, (t.master.resOf a).Sound

theorem resOf_of_res {m k : Master} (same : k.res = m.res) (a : Addr) : k.resOf a = m.resOf a := by
  simp only [Master.resOf, same]

theorem typeOf_of_rtype {m k : Master} (same : k.rtype = m.rtype) (a : Addr) : k.typeOf a = m.typeOf a := by
  simp only [Master.typeOf, same]

theorem ExchangeMove.res {s t : State} (h : ExchangeMove s t) : t.master.res = s.master.res := by
  rw [h.master]

theorem ExchangeMove.rtype {s t : State} (h : ExchangeMove s t) : t.master.rtype = s.master.rtype := by
  rw [h.master]

theorem ExchangeMove.dir {s t : State} (h : ExchangeMove s t) : t.master.dir = s.master.dir := by
  rw [h.master]

theorem ExchangeMove.auto {s t : State} (h : ExchangeMove s t) : AutoMove s t where
  toLineMove := h.line
  mem := h.mem
  inputs := h.inputs
  codecOut := h.codecOut
  master := by rw [h.master]
  count := h.count
  unusable := fun a _ => resOf_of_res h.res a
  sound := fun hs a => resOf_of_res h.res a ▸ hs a

theorem AutoMove.refl (s : State) : AutoMove s s := (ExchangeMove.refl s).auto

theorem AutoMove.trans {s t u : State} (h : AutoMove s t) (k : AutoMove t u) : AutoMove s u where
  toLineMove := h.toLineMove.trans k.toLineMove
  mem := k.mem.trans h.mem
  inputs := k.inputs.trans h.inputs
  codecOut := k.codecOut.trans h.codecOut
  master := by rw [k.master, h.master]
  count := k.count ∘ h.count
  unusable := fun a ha => (k.unusable a ha).trans (h.unusable a ha)
  sound := k.sound ∘ h.sound

/-- A write to the scan tables alone. -/
theorem updMaster_auto {g : Master → Master} {s : State}
    (tables : g s.master = { s.master with
      res := (g s.master).res, rtype := (g s.master).rtype
      renumbered := (g s.master).renumbered, swapped := (g s.master).swapped })
    (unusable : ∀ a, ¬Usable a → (g s.master).resOf a = s.master.resOf a)
    (sound : (∀ a, (s.master.resOf a).Sound) → ∀ a, ((g s.master).resOf a).Sound) : AutoMove s (s.updMaster g) where
  toLineMove := updMaster_line g s
  mem := rfl
  inputs := rfl
  codecOut := rfl
  master := by rw [updMaster_master, tables]
  count := by rw [updMaster_master, tables]; exact id
  unusable := unusable
  sound := sound

theorem scanResultOf_sound {r : ResultCode} (h : r ∈ commandCodes) : (scanResultOf r).Sound := by
  revert r; decide

theorem record_auto {a : Addr} (usable : Usable a) {r : ResultCode} (code : r ∈ commandCodes) (ty : Word16) (s : State) :
    AutoMove s (s.updMaster (Master.record a r ty)) := by
  obtain ⟨tables, res, -⟩ := record_spec a r ty s.master
  refine updMaster_auto (by rw [tables]) (fun b hb => ?_) fun hs b => ?_
  · rw [res, if_neg (by rintro rfl; exact hb usable)]
  · rw [res]
    split
    · exact scanResultOf_sound code
    · exact hs b

theorem scanAddr_auto {a : Addr} (usable : Usable a) (s : State) : AutoMove s (scanAddr s a) := by
  have asked : AutoMove s _ :=
    (probeInquire_move a s).auto.trans (record_auto usable (probeInquire_codes a s) (probeInquire a s).2.1 _)
  unfold scanAddr
  split
  · exact .refl s
  · exact .refl s
  · exact asked
  · exact asked

theorem scanAll_auto (s : State) : AutoMove s (scanAll s) := by
  have each : ∀ (as : List Addr) (s : State), (∀ a ∈ as, Usable a) → AutoMove s (as.foldl scanAddr s) := by
    intro as
    induction as with
    | nil => exact fun s _ => .refl s
    | cons a as ih =>
      intro s usable
      simp only [List.mem_cons, forall_eq_or_imp] at usable
      obtain ⟨first, rest⟩ := usable
      exact (scanAddr_auto first s).trans (ih _ rest)
  exact each usableAddrs s fun a => mem_usableAddrs.1

/-- What is picked is a member. -/
theorem pick_mem {α : Type} {xs : List α} {s : State} {x : α} (h : (s.pick xs).1 = some x) : x ∈ xs := by
  unfold State.pick Free.pick at h
  cases xs with
  | nil => cases h
  | cons y ys => exact List.mem_of_getElem? h

/-- Only of nothing is nothing picked. -/
theorem pick_none {α : Type} {xs : List α} {s : State} (h : (s.pick xs).1 = none) : xs = [] := by
  unfold State.pick Free.pick at h
  cases xs with
  | nil => rfl
  | cons y ys =>
    have inRange : s.free.draw.1.toNat % (y :: ys).length < (y :: ys).length := Nat.mod_lt _ (by simp)
    rw [List.getElem?_eq_getElem inRange] at h
    cases h

theorem usable_of_find {P : Addr → Bool} {a : Addr} (h : usableAddrs.find? P = some a) : Usable a :=
  mem_usableAddrs.1 (List.mem_of_find?_eq_some h)

/-- The scan table after both addresses are marked (43 R233). -/
theorem markRescan_resOf (c f : Addr) (s : State) (a : Addr) :
    (markRescan c f s).master.resOf a = if a = c ∨ a = f then .rescan else s.master.resOf a := by
  have marked : (markRescan c f s).master.resOf a = ((s.master.setRes c .rescan).setRes f .rescan).resOf a := rfl
  rw [marked, resOf_setRes, resOf_setRes]
  by_cases hc : a = c <;> by_cases hf : a = f <;> simp [hc, hf]

/-- The scan table after a device has moved (43 R234). -/
theorem moveEntry_resOf (x y : Addr) (s : State) (a : Addr) :
    (moveEntry x y s).master.resOf a = if a = x then .noResponse else if a = y then .ok else s.master.resOf a := by
  have moved : (moveEntry x y s).master.resOf a =
      (((s.master.setRes y .ok).setType y (s.master.typeOf x)).setRes x .noResponse).resOf a := rfl
  rw [moved, resOf_setRes, resOf_setType, resOf_setRes]

theorem moveEntry_typeOf (x y : Addr) (s : State) (a : Addr) :
    (moveEntry x y s).master.typeOf a = if a = y then s.master.typeOf x else s.master.typeOf a := by
  have moved : (moveEntry x y s).master.typeOf a =
      (((s.master.setRes y .ok).setType y (s.master.typeOf x)).setRes x .noResponse).typeOf a := rfl
  rw [moved, typeOf_setRes, typeOf_setType, typeOf_setRes]

/-- The type table after a swap (43 R235). -/
theorem swapTypes_typeOf {a b : Addr} (differ : a ≠ b) (s : State) (x : Addr) :
    (swapTypes a b s).master.typeOf x =
      if x = a then s.master.typeOf b else if x = b then s.master.typeOf a else s.master.typeOf x := by
  have swapped : (swapTypes a b s).master.typeOf x =
      ((s.master.setType a (s.master.typeOf b)).setType b (s.master.typeOf a)).typeOf x := rfl
  rw [swapped, typeOf_setType, typeOf_setType]
  by_cases hx : x = a
  · subst hx; simp [differ]
  · simp [hx]

theorem swapDevices_move (a b : Addr) (s : State) : ExchangeMove s (swapDevices a b s).2 := by
  have first := renumBody_move a 0 s
  have second := first.trans (renumBody_move b a _)
  simp only [swapDevices]
  split
  · exact first
  · split
    · exact second
    · exact second.trans (renumBody_move 0 b _)

/-! ## The ways to answer a next state -/

/-- What a public operation with this body returns: the body between lock and unlock, then its code (42 R180). -/
def returned (body : State → ResultCode × State) (s : State) : State :=
  report (body (lockMutex s)).1 (unlockMutex (body (lockMutex s)).2)

/-- How an instruction that answers a next state went. -/
inductive Ran : Instr → State → State → Prop where
  | frame {i : Instr} (f : List Byte) (s : State) : (encode i).port = .wire → Ran i s (frameOnWire f s)
  | pure {i : Instr} (out : CodecOut) (s : State) : (encode i).port = .codec → Ran i s { s with codecOut := out }
  | turnedAway {i : Instr} (s : State) : isPublicOp i = true → Ran i s (report .notInitialized s)
  | init (mutex : Bool) (s : State) : s.master.autoPasses = none → Ran (.init mutex) s
      (report .ok (s.updMaster fun m => { m with transport := some ⟨mutex⟩, initialized := true }))
  | send (a : Addr) (c : MsgClass) (payload : List Byte) (s : State) : s.Ready →
      Ran (.sendMessage a c payload) s (returned (sendBody a c payload) s)
  | receive (a : Addr) (c : MsgClass) (len : Byte) (buf : BufRef) (s : State) : s.Ready →
      Ran (.receiveMessage a c len buf) s (returned (receiveBody a c len buf) s)
  | command (a : Addr) (request : Vector Byte 5) (out : BufRef) (s : State) : s.Ready →
      Ran (.sendCmdMessage a request out) s (returned (commandBody a request out) s)
  | devices (decls : List Decl) (s : State) : s.Ready → declRefusal decls s = none →
      Ran (.defineDevices decls) s (returned (defineDevicesBody decls) s)
  | mirroring (defs : List MirrorDef) (s : State) : s.Ready → mirrorRefusal defs s = none →
      Ran (.defineMirroring defs) s (returned (defineMirroringBody defs) s)
  | tick (s : State) : s.Ready → Ran .mirrorTick s (returned mirrorTickBody s)
  | renum (old new : Addr) (s : State) : s.Ready → Ran (.renumId old new) s (returned (renumBody old new) s)
  | check (s : State) : s.Ready → Ran .checkConfig s (returned checkConfigBody s)
  | auto (s : State) : s.Ready → Ran .autoConfig s (advanceAuto 0 (initAuto (lockMutex s)))

/-- A public operation was turned away or ran its body. -/
theorem masterOp_ran {i : Instr} {bad : Option Refusal} {body : State → ResultCode × State} {s t : State}
    (isPublic : isPublicOp i = true) (h : masterOp bad body s = .next t)
    (ran : s.Ready → bad = none → Ran i s (returned body s)) : Ran i s t := by
  obtain ⟨-, rfl⟩ | ⟨ready, nothing, rfl⟩ := masterOp_next h
  · exact .turnedAway s isPublic
  · exact ran ready nothing

/-- Every next state is one of these. -/
theorem exec_ran {i : Instr} {s t : State} (h : exec i s = .next t) : Ran i s t := by
  cases i with
  | data0 | data1 | data2 | data3 | data4 | data5 | data6 | cmdProbe | cmdRenum | cmdInquire | cmdReserved =>
    cases h; exact .frame _ s rfl
  | crc8 | crc8Over | makeHeader | splitHeader | headerCrc | buildWriteFrame | buildReadRequest | buildCmdFrame | payloadOk
  | decodeInquire =>
    cases h; exact .pure _ s rfl
  | opReserved10 | opReserved11 | opReserved12 | opReserved13 | opReserved14 | opReserved15 => cases h
  | init mutex =>
    simp only [exec, execInit] at h
    split at h
    · cases h
    · rename_i idle
      cases h
      exact .init mutex s (by simpa using idle)
  | sendMessage a c payload => exact masterOp_ran rfl h fun ready _ => .send a c payload s ready
  | receiveMessage a c len buf => exact masterOp_ran rfl h fun ready _ => .receive a c len buf s ready
  | sendCmdMessage a request out =>
    exact masterOp_ran (bad := none) (body := commandBody a request out) rfl h fun ready _ => .command a request out s ready
  | defineDevices decls => exact masterOp_ran rfl h fun ready nothing => .devices decls s ready nothing
  | defineMirroring defs => exact masterOp_ran rfl h fun ready nothing => .mirroring defs s ready nothing
  | mirrorTick => exact masterOp_ran rfl h fun ready _ => .tick s ready
  | renumId old new =>
    exact masterOp_ran (bad := none) (body := renumBody old new) rfl h fun ready _ => .renum old new s ready
  | checkConfig => exact masterOp_ran (bad := none) (body := checkConfigBody) rfl h fun ready _ => .check s ready
  | autoConfig =>
    simp only [exec, execAutoConfig] at h
    split at h
    · cases h; exact .turnedAway s rfl
    · split at h
      · cases h
      · rename_i on idle
        cases h
        exact .auto s ⟨by simpa using on, by simpa using idle⟩

end Sys2Proof.Machine
end

section
/-! SUPPORT. A pass of AUTO_CONFIG (43 R231 to R238): the choices of its steps as the rules name them, the steps one after
another, and the scan address by address. -/

namespace Sys2Proof.Machine

/-! ## Searching the usable addresses -/

theorem usableAddrs_ascending : usableAddrs.Pairwise (· < ·) := by decide

/-- The first usable address with a property is the lowest one. -/
theorem find_usable_some {P : Addr → Bool} {a : Addr} (h : usableAddrs.find? P = some a) :
    Usable a ∧ P a = true ∧ ∀ b, b < a → Usable b → P b = false := by
  obtain ⟨holds, before, after, split, fails⟩ := List.find?_eq_some_iff_append.1 h
  refine ⟨usable_of_find h, holds, fun b below usable => ?_⟩
  have ascending := usableAddrs_ascending
  rw [split, List.pairwise_append] at ascending
  obtain ⟨-, tail, -⟩ := ascending
  have member := mem_usableAddrs.2 usable
  rw [split, List.mem_append, List.mem_cons] at member
  obtain inBefore | rfl | inAfter := member
  · simpa using fails b inBefore
  · exact absurd below (BitVec.lt_irrefl b)
  · exact absurd (BitVec.lt_trans below ((List.pairwise_cons.1 tail).1 b inAfter)) (BitVec.lt_irrefl b)

theorem find_usable_none {P : Addr → Bool} (h : usableAddrs.find? P = none) {a : Addr} (usable : Usable a) :
    P a = false := by
  simpa using List.find?_eq_none.1 h a (mem_usableAddrs.2 usable)

/-- A search for a property that implies usability finds the lowest address that has it. -/
theorem lowest_of_find {P : Addr → Bool} {Q : Addr → Prop} (same : ∀ b, Q b ↔ Usable b ∧ P b = true) {a : Addr}
    (h : usableAddrs.find? P = some a) : Lowest Q a := by
  obtain ⟨usable, holds, below⟩ := find_usable_some h
  refine ⟨(same a).2 ⟨usable, holds⟩, fun b hb hq => ?_⟩
  obtain ⟨usableB, holdsB⟩ := (same b).1 hq
  simp [below b hb usableB] at holdsB

theorem none_of_find {P : Addr → Bool} {Q : Addr → Prop} (same : ∀ b, Q b ↔ Usable b ∧ P b = true)
    (h : usableAddrs.find? P = none) (b : Addr) : ¬Q b := by
  intro hq
  obtain ⟨usable, holds⟩ := (same b).1 hq
  simp [find_usable_none h usable] at holds

/-- The usable addresses with a property get fewer when one of them loses it and none gains it. -/
theorem filter_usable_lt {P Q : Addr → Bool} {a : Addr} (usable : Usable a) (had : P a = true) (lost : Q a = false)
    (kept : ∀ b, Usable b → Q b = true → P b = true) :
    (usableAddrs.filter Q).length < (usableAddrs.filter P).length := by
  have inside : usableAddrs.filter Q = (usableAddrs.filter P).filter Q := by
    rw [List.filter_filter]
    refine List.filter_congr fun b hb => ?_
    have keep := kept b (mem_usableAddrs.1 hb)
    cases q : Q b <;> simp_all
  rw [inside, List.length_filter_lt_length_iff_exists]
  exact ⟨a, List.mem_filter.2 ⟨mem_usableAddrs.2 usable, had⟩, by simp [lost]⟩

theorem filter_usable_lt_rounds (P : Addr → Bool) : (usableAddrs.filter P).length < autoRounds := by
  have all : usableAddrs.length < autoRounds := by decide
  exact Nat.lt_of_le_of_lt (List.length_filter_le _ _) all

/-! ## The sets of R233 to R235 -/

theorem isOther_iff (r : ScanResult) : r.isOther = true ↔ r ≠ .rescan ∧ r ≠ .ok ∧ r ≠ .noResponse := by
  cases r <;> simp [ScanResult.isOther]

/-- After a scan no usable address is marked for it. -/
abbrev Master.AllScanned (m : Master) : Prop := ∀ a, Usable a → m.resOf a ≠ .rescan

theorem conflicted_iff {m : Master} (scanned : m.AllScanned) (a : Addr) :
    m.Conflicted a ↔ Usable a ∧ (m.resOf a).isOther = true := by
  rw [isOther_iff]
  exact ⟨fun ⟨usable, rest⟩ => ⟨usable, scanned a usable, rest⟩, fun ⟨usable, _, rest⟩ => ⟨usable, rest⟩⟩

theorem mem_freeAddrs {m : Master} {a : Addr} : a ∈ m.freeAddrs ↔ m.FreeAddr a := by
  simp [Master.freeAddrs, mem_usableAddrs]

theorem mem_extras {m : Master} {a : Addr} : a ∈ m.extras ↔ m.Extra a := by
  simp [Master.extras, mem_usableAddrs]

theorem mem_missing {m : Master} {a : Addr} : a ∈ m.missing ↔ m.Missing a := by
  simp [Master.missing, mem_usableAddrs]

theorem mismatched_iff (m : Master) (a : Addr) : m.Mismatched a ↔ Usable a ∧ m.mismatched a = true := by
  simp [Master.mismatched, and_assoc]

theorem partner_iff (m : Master) (a b : Addr) :
    m.Partner a b ↔ Usable b ∧ (decide (a < b) && m.mismatched b && m.typeOf b = (m.decl a).devType) = true := by
  rw [Master.Partner, mismatched_iff]
  simp only [Bool.and_eq_true, decide_eq_true_eq]
  exact ⟨fun ⟨above, ⟨usable, mis⟩, ty⟩ => ⟨usable, ⟨above, mis⟩, ty⟩,
    fun ⟨usable, ⟨above, mis⟩, ty⟩ => ⟨above, ⟨usable, mis⟩, ty⟩⟩

/-! ## S2 (R233) -/

/-- A pick from nothing gives nothing; from anything it gives a member and draws. -/
theorem pick_cases {α : Type} (xs : List α) (s : State) :
    (xs = [] ∧ s.pick xs = (none, s)) ∨ ∃ x q, s.pick xs = (some x, q) ∧ x ∈ xs ∧ AfterDraws s q := by
  cases picked : (s.pick xs).1 with
  | none =>
    obtain rfl := pick_none picked
    exact .inl ⟨rfl, rfl⟩
  | some x => exact .inr ⟨x, (s.pick xs).2, Prod.ext picked rfl, pick_mem picked, rfl⟩

theorem markRescan_both (c f : Addr) (s : State) : BothRescanned c f s (markRescan c f s) :=
  ⟨rfl, markRescan_resOf c f s⟩

/-- S2 goes on only without a conflict, and otherwise ends the pass as R233 says. -/
theorem resolveIds_ends {p : State} (scanned : p.master.AllScanned) :
    (resolveIds p = (.onward, p) ∧ ∀ c, ¬p.master.Conflicted c) ∨
    (∃ t, resolveIds p = (.restart, t) ∧ PassEnds p none t) ∨
    (∃ r t, resolveIds p = (.done r, t) ∧ PassEnds p (some r) t) := by
  have conflicts := conflicted_iff scanned
  unfold resolveIds
  cases found : p.master.conflicted with
  | none => exact .inl ⟨rfl, none_of_find conflicts found⟩
  | some c =>
    have lowest := lowest_of_find conflicts found
    right
    obtain ⟨noFree, picked⟩ | ⟨f, q, picked, member, draws⟩ := pick_cases p.master.freeAddrs p
    · refine .inr ⟨_, _, by simp only [picked], .noFree lowest.1 fun f hf => ?_⟩
      simp [← mem_freeAddrs, noFree] at hf
    · have free : p.master.FreeAddr f := mem_freeAddrs.1 member
      by_cases ok : (renumBody c f q).1 = .ok
      · exact .inl ⟨_, by simp only [picked, ok, if_true], .renumbered lowest free draws ok (markRescan_both c f _)⟩
      · exact .inr ⟨_, _, by simp only [picked, ok, if_false], .conflictStays lowest free draws ok⟩

/-! ## S3 (R234) -/

theorem decl_of_dir {m k : Master} (same : k.dir = m.dir) (a : Addr) : k.decl a = m.decl a := by
  simp only [Master.decl, same]

theorem moveEntry_dir (x y : Addr) (s : State) : (moveEntry x y s).master.dir = s.master.dir := rfl

/-- The directory and the tables after a device has moved, from before its renumber. -/
theorem moved_tables {x y : Addr} {q : State} :
    (moveEntry x y (renumBody x y q).2).master.dir = q.master.dir ∧
    ∀ a, (moveEntry x y (renumBody x y q).2).master.resOf a =
      if a = x then .noResponse else if a = y then .ok else q.master.resOf a := by
  have renumbered := renumBody_move x y q
  refine ⟨(moveEntry_dir x y _).trans renumbered.dir, fun a => ?_⟩
  rw [moveEntry_resOf, resOf_of_res renumbered.res]

/-- One missing address fewer after an extra device has moved there. -/
theorem missing_decreases {x y : Addr} {q : State} (extra : q.master.Extra x) (missing : q.master.Missing y) :
    (moveEntry x y (renumBody x y q).2).master.missing.length < q.master.missing.length := by
  obtain ⟨-, -, undeclared⟩ := extra
  obtain ⟨usable, declared, silent⟩ := missing
  obtain ⟨dir, res⟩ := moved_tables (x := x) (y := y) (q := q)
  have differ : y ≠ x := by rintro rfl; simp [declared] at undeclared
  refine filter_usable_lt usable (by simp [declared, silent]) ?_ fun b _ hb => ?_
  · simp [res, differ]
  · simp only [decl_of_dir dir, res, Bool.and_eq_true, decide_eq_true_eq] at hb ⊢
    obtain ⟨declaredB, silentB⟩ := hb
    have notX : b ≠ x := by rintro rfl; simp [declaredB] at undeclared
    rw [if_neg notX] at silentB
    split at silentB
    · cases silentB
    · exact ⟨declaredB, silentB⟩

/-- How S3 ends: nothing left to move, or a renumber that failed. -/
inductive MissingEnds (s : State) : Progress → State → Prop where
  | finished {u : State} : ExtrasMoved s u → u.master.NothingToMove → MissingEnds s .onward u
  | stays {u q : State} {x y : Addr} : ExtrasMoved s u → u.master.Extra x → u.master.Missing y → AfterDraws u q →
      (renumBody x y q).1 ≠ .ok → MissingEnds s (.done (renumBody x y q).1) (renumBody x y q).2

/-- A round before. -/
theorem MissingEnds.after {s q t u : State} {x y : Addr} {r : Progress} (extra : s.master.Extra x)
    (missing : s.master.Missing y) (draws : AfterDraws s q) (ok : (renumBody x y q).1 = .ok)
    (moved : EntryMoved x y (renumBody x y q).2 t) (h : MissingEnds t r u) : MissingEnds s r u := by
  cases h with
  | finished rounds done => exact .finished (.one extra missing draws ok moved rounds) done
  | stays rounds ex mi dr fails => exact .stays (.one extra missing draws ok moved rounds) ex mi dr fails

theorem moveEntry_moved (x y : Addr) (s : State) : EntryMoved x y s (moveEntry x y s) :=
  ⟨rfl, moveEntry_resOf x y s, moveEntry_typeOf x y s⟩

theorem resolveMissing_ends : ∀ (fuel : Nat) (s : State), s.master.missing.length < fuel →
    MissingEnds s (resolveMissing fuel s).1 (resolveMissing fuel s).2
  | 0, s, h => absurd h (Nat.not_lt_zero _)
  | fuel + 1, s, h => by
    unfold resolveMissing
    by_cases empty : (s.master.extras.isEmpty || s.master.missing.isEmpty) = true
    · rw [if_pos empty]
      refine .finished (.none s) ?_
      rw [Bool.or_eq_true, List.isEmpty_iff, List.isEmpty_iff] at empty
      obtain noExtra | noMissing := empty
      · exact .inl fun x hx => by simp [← mem_extras, noExtra] at hx
      · exact .inr fun y hy => by simp [← mem_missing, noMissing] at hy
    · rw [if_neg empty]
      rw [Bool.or_eq_true, List.isEmpty_iff, List.isEmpty_iff, not_or] at empty
      obtain ⟨someExtra, someMissing⟩ := empty
      obtain ⟨noExtra, -⟩ | ⟨x, q, pickedX, memberX, drawsX⟩ := pick_cases s.master.extras s
      · exact absurd noExtra someExtra
      have sameQ : q.master = s.master := by rw [drawsX]
      obtain ⟨noMissing, -⟩ | ⟨y, w, pickedY, memberY, drawsY⟩ := pick_cases q.master.missing q
      · exact absurd (sameQ ▸ noMissing) someMissing
      have sameW : w.master = s.master := by rw [drawsY, sameQ]
      have extra : s.master.Extra x := mem_extras.1 memberX
      have missing : s.master.Missing y := mem_missing.1 (sameQ ▸ memberY)
      have draws : AfterDraws s w := by rw [drawsY, drawsX]
      simp only [pickedX, pickedY]
      by_cases ok : (renumBody x y w).1 = .ok
      · simp only [ok, if_true]
        refine .after extra missing draws ok (moveEntry_moved x y _) (resolveMissing_ends fuel _ ?_)
        have fewer := missing_decreases (q := w) (sameW ▸ extra) (sameW ▸ missing)
        rw [sameW] at fewer
        omega
      · simp only [ok, if_false]
        exact .stays (.none s) extra missing draws ok

/-! ## S4 and S5 (R235, R236) -/

theorem swapDevices_run (a b : Addr) (s : State) : SwapRun a b s (swapDevices a b s).1 (swapDevices a b s).2 := by
  simp only [swapDevices]
  by_cases first : (renumBody a 0 s).1 = .ok
  · rw [if_neg (not_not.2 first)]
    by_cases second : (renumBody b a (renumBody a 0 s).2).1 = .ok
    · rw [if_neg (not_not.2 second)]; exact .third first second
    · rw [if_pos second]; exact .second first second
  · rw [if_pos first]; exact .first first

theorem swapTypes_dir (a b : Addr) (s : State) : (swapTypes a b s).master.dir = s.master.dir := rfl

theorem swapTypes_res (a b : Addr) (s : State) : (swapTypes a b s).master.res = s.master.res := rfl

theorem swapTypes_swapped {a b : Addr} (differ : a ≠ b) (s : State) : TypesSwapped a b s (swapTypes a b s) :=
  ⟨rfl, swapTypes_typeOf differ s⟩

/-- The mismatched addresses. -/
def Master.mismatches (m : Master) : List Addr := usableAddrs.filter m.mismatched

/-- One mismatched address fewer after a swap: the lower one now has its declared type. -/
theorem mismatches_decrease {a b : Addr} {s : State} (mis : s.master.Mismatched a) (partner : s.master.Partner a b) :
    (swapTypes a b (swapDevices a b s).2).master.mismatches.length < s.master.mismatches.length := by
  obtain ⟨above, misB, typeB⟩ := partner
  obtain ⟨usable, hadA⟩ := (mismatched_iff _ _).1 mis
  have differ : a ≠ b := by rintro rfl; exact BitVec.lt_irrefl a above
  have moved := swapDevices_move a b s
  have types : ∀ x, (swapTypes a b (swapDevices a b s).2).master.typeOf x =
      if x = a then s.master.typeOf b else if x = b then s.master.typeOf a else s.master.typeOf x := fun x => by
    rw [swapTypes_typeOf differ]
    simp only [typeOf_of_rtype moved.rtype]
  have dir : ∀ x, (swapTypes a b (swapDevices a b s).2).master.decl x = s.master.decl x :=
    decl_of_dir ((swapTypes_dir a b _).trans moved.dir)
  have res : ∀ x, (swapTypes a b (swapDevices a b s).2).master.resOf x = s.master.resOf x :=
    resOf_of_res ((swapTypes_res a b _).trans moved.res)
  refine filter_usable_lt usable hadA ?_ fun x _ hx => ?_
  · simp [Master.mismatched, types, dir, typeB]
  · by_cases isB : x = b
    · subst isB; exact ((mismatched_iff _ _).1 misB).2
    · by_cases isA : x = a
      · subst isA; exact hadA
      · simpa [Master.mismatched, types, dir, res, isA, isB] using hx

/-- How S4 ends: no mismatch left, no partner for the lowest, or a renumber that failed. -/
inductive TypesEnd (s : State) : Progress → State → Prop where
  | finished {v : State} : PairsSwapped s v → (∀ a, ¬v.master.Mismatched a) → TypesEnd s .onward v
  | stuck {v : State} {a : Addr} : PairsSwapped s v → Lowest v.master.Mismatched a → (∀ b, ¬v.master.Partner a b) →
      TypesEnd s (.done .typeConflict) v
  | fails {v w : State} {a b : Addr} {r : ResultCode} : PairsSwapped s v → Lowest v.master.Mismatched a →
      Lowest (v.master.Partner a) b → SwapRun a b v r w → r ≠ .ok → TypesEnd s (.done r) w

theorem TypesEnd.after {s q t u : State} {a b : Addr} {r : Progress} (lowestA : Lowest s.master.Mismatched a)
    (lowestB : Lowest (s.master.Partner a) b) (run : SwapRun a b s .ok q) (swapped : TypesSwapped a b q t)
    (h : TypesEnd t r u) : TypesEnd s r u := by
  cases h with
  | finished pairs none => exact .finished (.one lowestA lowestB run swapped pairs) none
  | stuck pairs la nb => exact .stuck (.one lowestA lowestB run swapped pairs) la nb
  | fails pairs la lb fr bad => exact .fails (.one lowestA lowestB run swapped pairs) la lb fr bad

theorem resolveTypes_ends : ∀ (fuel : Nat) (s : State), s.master.mismatches.length < fuel →
    TypesEnd s (resolveTypes fuel s).1 (resolveTypes fuel s).2
  | 0, s, h => absurd h (Nat.not_lt_zero _)
  | fuel + 1, s, h => by
    unfold resolveTypes
    cases foundA : s.master.conflictA with
    | none => exact .finished (.none s) (none_of_find (mismatched_iff s.master) foundA)
    | some a =>
      have lowestA := lowest_of_find (mismatched_iff s.master) foundA
      cases foundB : s.master.partnerOf a with
      | none =>
        simp only [foundB]
        exact .stuck (.none s) lowestA (none_of_find (partner_iff s.master a) foundB)
      | some b =>
        have lowestB := lowest_of_find (partner_iff s.master a) foundB
        have differ : a ≠ b := by rintro rfl; exact BitVec.lt_irrefl a lowestB.1.1
        have run := swapDevices_run a b s
        have fewer := mismatches_decrease lowestA.1 lowestB.1
        have rest := resolveTypes_ends fuel (swapTypes a b (swapDevices a b s).2) (by omega)
        simp only [foundB]
        generalize swapDevices a b s = out at run rest
        obtain ⟨r, q⟩ := out
        by_cases ok : r = .ok
        · simp only [ok, if_true] at run ⊢
          exact .after lowestA lowestB run (swapTypes_swapped differ q) rest
        · simp only [ok, if_false]
          exact .fails (.none s) lowestA lowestB run ok

/-- A step of the pass that ended it, as the code to return. -/
def endCode : Progress → Option ResultCode
  | .done r => some r
  | .restart => none
  | .onward => none

theorem typesThenReturn_ends {p u : State} (noConflict : ∀ c, ¬p.master.Conflicted c) (rounds : ExtrasMoved p u)
    (nothing : u.master.NothingToMove) : PassEnds p (endCode (typesThenReturn u).1) (typesThenReturn u).2 := by
  have ends := resolveTypes_ends autoRounds u (filter_usable_lt_rounds _)
  unfold typesThenReturn
  generalize resolveTypes autoRounds u = out at ends
  obtain ⟨progress, v⟩ := out
  cases ends with
  | finished pairs none => exact .returns noConflict rounds nothing pairs none
  | stuck pairs lowestA noPartner => exact .typeConflict noConflict rounds nothing pairs lowestA noPartner
  | fails pairs lowestA lowestB run bad => exact .swapFails noConflict rounds nothing pairs lowestA lowestB run bad

theorem missingThenOn_ends {p : State} (noConflict : ∀ c, ¬p.master.Conflicted c) :
    PassEnds p (endCode (missingThenOn p).1) (missingThenOn p).2 := by
  have ends := resolveMissing_ends autoRounds p (filter_usable_lt_rounds _)
  unfold missingThenOn
  generalize resolveMissing autoRounds p = out at ends
  obtain ⟨progress, u⟩ := out
  cases ends with
  | finished rounds nothing => exact typesThenReturn_ends noConflict rounds nothing
  | stays rounds extra missing draws bad => exact .missingStays noConflict rounds extra missing draws bad

/-- The steps after the scan end the pass as the rules say (43 R233 to R236). -/
theorem idsThenOn_ends {p : State} (scanned : p.master.AllScanned) :
    PassEnds p (endCode (idsThenOn p).1) (idsThenOn p).2 := by
  unfold idsThenOn
  obtain ⟨ids, noConflict⟩ | ⟨t, ids, ends⟩ | ⟨r, t, ids, ends⟩ := resolveIds_ends scanned
  · rw [ids]; exact missingThenOn_ends noConflict
  · rw [ids]; exact ends
  · rw [ids]; exact ends

end Sys2Proof.Machine
end

section
/-! SUPPORT. AUTO_CONFIG as a whole (43 R230 to R238): the scan address by address, what a pass leaves alone, its return, and
the call in progress step by step. -/

namespace Sys2Proof.Machine

/-! ## The scan (R232) -/

theorem scanResultOf_ne_rescan (r : ResultCode) : scanResultOf r ≠ .rescan := by cases r <;> decide

/-- The scan of one address leaves every other entry alone. -/
theorem scanAddr_other {s : State} {a b : Addr} (other : b ≠ a) :
    (scanAddr s a).master.resOf b = s.master.resOf b ∧ (scanAddr s a).master.typeOf b = s.master.typeOf b := by
  have step := scanAddr_step a s
  generalize scanAddr s a = t at step
  cases step with
  | confirmed _ => exact ⟨rfl, rfl⟩
  | asked _ _ _ _ res ty => exact ⟨by rw [res, if_neg other], by rw [ty, if_neg other]⟩

/-- A confirmed address is passed tooMany. -/
theorem scanAddr_confirmed {s : State} {a : Addr} (h : s.master.resOf a = .ok ∨ s.master.resOf a = .noResponse) :
    scanAddr s a = s := by
  unfold scanAddr
  obtain ok | silent := h
  · rw [ok]
  · rw [silent]

/-- An address that is scanned is no longer marked for it, and no other becomes so. -/
theorem scanAddr_scanned {s : State} {a b : Addr} (h : b = a ∨ s.master.resOf b ≠ .rescan) :
    (scanAddr s a).master.resOf b ≠ .rescan := by
  have step := scanAddr_step a s
  generalize scanAddr s a = t at step
  cases step with
  | confirmed known =>
    obtain rfl | scanned := h
    · obtain ok | silent := known
      · simp [ok]
      · simp [silent]
    · exact scanned
  | asked _ _ _ _ res _ =>
    rw [res]
    split
    · exact scanResultOf_ne_rescan _
    · exact h.resolve_left ‹_›

/-- Scanning a list leaves alone what is confirmed or not in it. -/
theorem scanList_keeps : ∀ (as : List Addr) {s : State} {a : Addr},
    s.master.resOf a = .ok ∨ s.master.resOf a = .noResponse ∨ a ∉ as →
      (as.foldl scanAddr s).master.resOf a = s.master.resOf a ∧
      (as.foldl scanAddr s).master.typeOf a = s.master.typeOf a
  | [], _, _, _ => ⟨rfl, rfl⟩
  | b :: as, s, a, h => by
    by_cases here : a = b
    · subst here
      have known : s.master.resOf a = .ok ∨ s.master.resOf a = .noResponse := by simpa using h
      rw [List.foldl_cons, scanAddr_confirmed known]
      exact scanList_keeps as (known.elim .inl fun silent => .inr (.inl silent))
    · obtain ⟨res, ty⟩ := scanAddr_other (s := s) here
      have rest := scanList_keeps as (s := scanAddr s b) (a := a) (by rw [res]; simpa [here] using h)
      rwa [res, ty] at rest

/-- After a list is scanned no address of it is marked for it. -/
theorem scanList_scans : ∀ (as : List Addr) {s : State} {a : Addr}, a ∈ as ∨ s.master.resOf a ≠ .rescan →
    (as.foldl scanAddr s).master.resOf a ≠ .rescan
  | [], _, _, h => h.resolve_left (by simp)
  | b :: as, s, a, h => by
    refine scanList_scans as (s := scanAddr s b) ?_
    by_cases later : a ∈ as
    · exact .inl later
    · refine .inr (scanAddr_scanned ?_)
      simpa [later] using h

/-- The state a pass begins with. -/
def State.begun (passes : Nat) (s : State) : State := { s with master := { s.master with autoPasses := some passes } }

theorem scanned_eq (passes : Nat) (s : State) : s.scanned passes = scanAll (s.begun passes) := by
  rw [State.scanned, State.begun]

theorem scanned_keeps {s : State} {k : Nat} {a : Addr}
    (h : s.master.resOf a = .ok ∨ s.master.resOf a = .noResponse ∨ ¬Usable a) :
    (s.scanned k).master.resOf a = s.master.resOf a ∧ (s.scanned k).master.typeOf a = s.master.typeOf a := by
  rw [scanned_eq, scanAll]
  exact scanList_keeps usableAddrs (s := s.begun k) (by rw [mem_usableAddrs]; exact h)

/-- After the scan of a pass every usable address has its result. -/
theorem scanned_all (s : State) (k : Nat) : (s.scanned k).master.AllScanned := by
  rw [scanned_eq, scanAll]
  exact fun _ usable => scanList_scans usableAddrs (.inl (mem_usableAddrs.2 usable))

/-- The state after the scan of the first `n` usable addresses. -/
def State.scannedFirst (n : Nat) (s : State) : State := (usableAddrs.take n).foldl scanAddr s

/-- The address `a` is the one in place `a - 1`, before it stand other addresses, and so do behind it. -/
theorem usableAddrs_place : ∀ a : Addr, Usable a →
    usableAddrs.take a.toNat = usableAddrs.take (a.toNat - 1) ++ [a] ∧ a ∉ usableAddrs.drop a.toNat ∧ 1 ≤ a.toNat := by
  decide

/-- The scan of an address is one step of the scan of the list, and later steps leave its entry alone. -/
theorem scannedFirst_step {s : State} {a : Addr} (usable : Usable a) :
    ScanStep a (s.scannedFirst (a.toNat - 1)) (s.scannedFirst a.toNat) ∧
    (usableAddrs.foldl scanAddr s).master.resOf a = (s.scannedFirst a.toNat).master.resOf a ∧
    (usableAddrs.foldl scanAddr s).master.typeOf a = (s.scannedFirst a.toNat).master.typeOf a := by
  obtain ⟨upTo, notLater, -⟩ := usableAddrs_place a usable
  constructor
  · have one : s.scannedFirst a.toNat = scanAddr (s.scannedFirst (a.toNat - 1)) a := by
      rw [State.scannedFirst, upTo, List.foldl_append]; rfl
    rw [one]
    exact scanAddr_step a _
  · have all : usableAddrs.foldl scanAddr s = (usableAddrs.drop a.toNat).foldl scanAddr (s.scannedFirst a.toNat) := by
      rw [State.scannedFirst, ← List.foldl_append, List.take_append_drop]
    rw [all]
    exact scanList_keeps _ (.inr (.inr notLater))

/-! ## What the end of a pass leaves alone -/

theorem AfterDraws.auto {s q : State} (h : AfterDraws s q) : AutoMove s q := by
  obtain ⟨f, rfl⟩ : ∃ f, q = { s with free := f } := ⟨_, h⟩
  exact ⟨.of_eq rfl rfl rfl, rfl, rfl, rfl, rfl, id, fun _ _ => rfl, id⟩

/-- A write to the scan tables alone, given by its result. -/
theorem auto_of_tables {s t : State} (rest : t = { s with master := t.master })
    (tables : t.master = { s.master with
      res := t.master.res, rtype := t.master.rtype, renumbered := t.master.renumbered, swapped := t.master.swapped })
    (unusable : ∀ a, ¬Usable a → t.master.resOf a = s.master.resOf a)
    (sound : (∀ a, (s.master.resOf a).Sound) → ∀ a, (t.master.resOf a).Sound) : AutoMove s t := by
  obtain ⟨m, rfl⟩ : ∃ m, t = { s with master := m } := ⟨_, rest⟩
  exact
    { toLineMove := .of_eq rfl rfl rfl
      mem := rfl
      inputs := rfl
      codecOut := rfl
      master := by rw [tables]
      count := by rw [tables]; exact id
      unusable := unusable
      sound := sound }

theorem EntryMoved.auto {x y : Addr} {s t : State} (hx : Usable x) (hy : Usable y) (h : EntryMoved x y s t) :
    AutoMove s t := by
  obtain ⟨state, res, -⟩ := h
  have master := congrArg State.master state
  refine auto_of_tables (by rw [state]) (by rw [master]) (fun a ha => ?_) fun hs a => ?_
  · rw [res, if_neg (by rintro rfl; exact ha hx), if_neg (by rintro rfl; exact ha hy)]
  · rw [res]
    split
    · exact .inr (.inr (.inl rfl))
    · split
      · exact .inr (.inl rfl)
      · exact hs a

theorem BothRescanned.auto {c f : Addr} {s t : State} (hc : Usable c) (hf : Usable f) (h : BothRescanned c f s t) :
    AutoMove s t := by
  obtain ⟨state, res⟩ := h
  have master := congrArg State.master state
  refine auto_of_tables (by rw [state]) (by rw [master]) (fun a ha => ?_) fun hs a => ?_
  · rw [res, if_neg]
    rintro (rfl | rfl)
    · exact ha hc
    · exact ha hf
  · rw [res]
    split
    · exact .inl rfl
    · exact hs a

theorem TypesSwapped.auto {a b : Addr} {s t : State} (h : TypesSwapped a b s t) : AutoMove s t := by
  obtain ⟨state, -⟩ := h
  have master := congrArg State.master state
  have res : ∀ x, t.master.resOf x = s.master.resOf x := resOf_of_res (by rw [master])
  exact auto_of_tables (by rw [state]) (by rw [master]) (fun x _ => res x) fun hs x => res x ▸ hs x

theorem SwapRun.auto {a b : Addr} {s t : State} {r : ResultCode} (h : SwapRun a b s r t) :
    AutoMove s t ∧ r ∈ commandCodes := by
  have first := (renumBody_move a 0 s).auto
  have second := first.trans (renumBody_move b a _).auto
  cases h with
  | first _ => exact ⟨first, renumBody_codes a 0 s⟩
  | second _ _ => exact ⟨second, renumBody_codes b a _⟩
  | third _ _ => exact ⟨second.trans (renumBody_move 0 b _).auto, renumBody_codes 0 b _⟩

theorem ExtrasMoved.auto {s t : State} (h : ExtrasMoved s t) : AutoMove s t := by
  induction h with
  | none s => exact .refl s
  | one extra missing draws _ moved _ ih =>
    exact (draws.auto.trans (renumBody_move _ _ _).auto).trans ((moved.auto extra.1 missing.1).trans ih)

theorem PairsSwapped.auto {s t : State} (h : PairsSwapped s t) : AutoMove s t := by
  induction h with
  | none s => exact .refl s
  | one _ _ run swapped _ ih => exact run.auto.1.trans (swapped.auto.trans ih)

theorem commandCodes_returned {r : ResultCode} (h : r ∈ commandCodes) : r ∈ autoConfigCodes := by
  revert r; decide

/-- However a pass ends, it keeps to what AUTO_CONFIG may touch, and its code is one of AUTO_CONFIG's. -/
theorem PassEnds.auto {p t : State} {r : Option ResultCode} (h : PassEnds p r t) :
    AutoMove p t ∧ ∀ c, r = some c → c ∈ autoConfigCodes := by
  cases h with
  | noFree _ _ => exact ⟨.refl p, by rintro _ ⟨⟩; decide⟩
  | renumbered lowest free draws _ both =>
    exact ⟨(draws.auto.trans (renumBody_move _ _ _).auto).trans (both.auto lowest.1.1 free.1), nofun⟩
  | conflictStays _ _ draws _ =>
    exact ⟨draws.auto.trans (renumBody_move _ _ _).auto, by rintro _ ⟨⟩; exact commandCodes_returned (renumBody_codes _ _ _)⟩
  | missingStays _ rounds _ _ draws _ =>
    exact ⟨rounds.auto.trans (draws.auto.trans (renumBody_move _ _ _).auto),
      by rintro _ ⟨⟩; exact commandCodes_returned (renumBody_codes _ _ _)⟩
  | typeConflict _ rounds _ pairs _ _ => exact ⟨rounds.auto.trans pairs.auto, by rintro _ ⟨⟩; decide⟩
  | swapFails _ rounds _ pairs _ _ run _ =>
    exact ⟨rounds.auto.trans (pairs.auto.trans run.auto.1), by rintro _ ⟨⟩; exact commandCodes_returned run.auto.2⟩
  | returns _ rounds _ pairs _ =>
    refine ⟨rounds.auto.trans pairs.auto, ?_⟩
    rintro _ ⟨⟩
    split
    · decide
    · split <;> decide

/-! ## One pass of the call in progress -/

theorem overPasses_iff (p : Params) (n : Nat) : overPasses p n = true ↔ ∃ m, p.autocfgMaxPasses = some m ∧ m < n := by
  unfold overPasses
  cases p.autocfgMaxPasses <;> simp

/-- A pass over the cap returns at once. -/
theorem advanceAuto_over {k : Nat} {s : State} (tooMany : overPasses s.params (k + 1) = true) :
    advanceAuto k s = passOutcome (some .passLimit) (s.begun (k + 1)) := by
  simp only [advanceAuto, autoPass, tooMany, if_true]
  rfl

/-- Every other pass scans and ends as the rules say. -/
theorem advanceAuto_ends {k : Nat} {s : State} (within : overPasses s.params (k + 1) = false) :
    ∃ r t, PassEnds (s.scanned (k + 1)) r t ∧ advanceAuto k s = passOutcome r t := by
  have ends := idsThenOn_ends (scanned_all s (k + 1))
  have start : (s.updMaster fun m => { m with autoPasses := some (k + 1) }) = s.begun (k + 1) := rfl
  have pass : autoPass (k + 1) s = idsThenOn (s.scanned (k + 1)) := by
    rw [autoPass, within, start, scanned_eq, if_neg (by simp)]
  refine ⟨_, _, ends, ?_⟩
  unfold advanceAuto
  rw [pass]
  generalize idsThenOn (s.scanned (k + 1)) = out
  obtain ⟨progress, t⟩ := out
  cases progress <;> rfl

/-- What one pass leaves, whichever it is. -/
theorem advanceAuto_auto (k : Nat) (s : State) :
    ∃ r t, AutoMove (s.begun (k + 1)) t ∧ (∀ c, r = some c → c ∈ autoConfigCodes) ∧
      advanceAuto k s = passOutcome r t := by
  cases tooMany : overPasses s.params (k + 1) with
  | true => exact ⟨_, _, .refl _, by rintro _ ⟨⟩; decide, advanceAuto_over tooMany⟩
  | false =>
    obtain ⟨r, t, ends, outcome⟩ := advanceAuto_ends tooMany
    obtain ⟨move, codes⟩ := ends.auto
    exact ⟨r, t, (scanAll_auto (s.begun (k + 1))).trans move, codes, outcome⟩

/-! ## What the call leaves alone -/

theorem AutoMove.only {s t : State} (h : AutoMove s t) : AutoConfigOnly s t :=
  ⟨h.params, h.mem, h.inputs, h.codecOut, by rw [h.master]⟩

theorem autoConfigOnly_trans {s t u : State} (h : AutoConfigOnly s t) (k : AutoConfigOnly t u) : AutoConfigOnly s u := by
  obtain ⟨hp, hmem, hin, hout, hm⟩ := h
  obtain ⟨kp, kmem, kin, kout, km⟩ := k
  exact ⟨kp.trans hp, kmem.trans hmem, kin.trans hin, kout.trans hout, by rw [km, hm]⟩

theorem begun_only (k : Nat) (s : State) : AutoConfigOnly s (s.begun k) := ⟨rfl, rfl, rfl, rfl, rfl⟩

theorem lockMutex_only (s : State) : AutoConfigOnly s (lockMutex s) :=
  ⟨rfl, rfl, rfl, rfl, by rw [lockMutex_eq s]⟩

/-- Nothing but the depth changes when the mutex is released. -/
theorem unlockMutex_eq (s : State) :
    unlockMutex s = { s with master := { s.master with mutexDepth := (unlockMutex s).master.mutexDepth } } := by
  cases h : s.master.hasMutex <;> simp [unlockMutex, State.updMaster, h]

theorem initAuto_only (s : State) : AutoConfigOnly s (initAuto s) := ⟨rfl, rfl, rfl, rfl, rfl⟩

/-- The return of AUTO_CONFIG, register by register. -/
theorem finishAuto_master (r : ResultCode) (s : State) :
    (finishAuto r s).master = { s.master with
      resultPerAddress := s.master.res, autoPasses := none, result := some r
      mutexDepth := if s.master.hasMutex then s.master.mutexDepth - 1 else s.master.mutexDepth } := by
  cases h : s.master.hasMutex <;> simp_all [finishAuto, unlockMutex, State.updMaster, Master.hasMutex]

theorem passOutcome_only (r : Option ResultCode) (t : State) : AutoConfigOnly t (passOutcome r t) := by
  cases r with
  | none => exact ⟨rfl, rfl, rfl, rfl, rfl⟩
  | some r => exact ⟨rfl, rfl, rfl, rfl, by simp only [passOutcome]; rw [finishAuto_master]⟩

theorem advanceAuto_only (k : Nat) (s : State) : AutoConfigOnly s (advanceAuto k s) := by
  obtain ⟨r, t, move, -, outcome⟩ := advanceAuto_auto k s
  rw [outcome]
  exact autoConfigOnly_trans (begun_only (k + 1) s) (autoConfigOnly_trans move.only (passOutcome_only r t))

/-! ## The call and its later steps -/

theorem exec_autoConfig {s : State} (ready : s.Ready) : exec .autoConfig s = .next (advanceAuto 0 (initAuto (lockMutex s))) := by
  obtain ⟨on, idle⟩ := ready
  simp [exec, execAutoConfig, on, idle]

theorem step_auto {s : State} {k : Nat} (running : s.master.autoPasses = some k) : step s = .next (advanceAuto k s) := by
  simp [step, running]

/-- How the registers of the call stand after a pass. -/
theorem advanceAuto_registers (k : Nat) (s : State) :
    ((advanceAuto k s).master.autoPasses = some (k + 1) ∧ (advanceAuto k s).master.result = s.master.result ∧
      (advanceAuto k s).master.mutexDepth = s.master.mutexDepth) ∨
    ((advanceAuto k s).master.autoPasses = none ∧
      (advanceAuto k s).master.resultPerAddress = (advanceAuto k s).master.res ∧
      (advanceAuto k s).master.mutexDepth =
        (if s.master.hasMutex then s.master.mutexDepth - 1 else s.master.mutexDepth) ∧
      ∃ r ∈ autoConfigCodes, (advanceAuto k s).master.result = some r) := by
  obtain ⟨r, t, move, codes, outcome⟩ := advanceAuto_auto k s
  rw [outcome]
  have master := move.master
  cases r with
  | none =>
    refine .inl ?_
    rw [passOutcome, master]
    exact ⟨rfl, rfl, rfl⟩
  | some r =>
    refine .inr ?_
    simp only [passOutcome, finishAuto_master]
    have mutex : t.master.hasMutex = s.master.hasMutex := by rw [master]; rfl
    have depth : t.master.mutexDepth = s.master.mutexDepth := by rw [master]; rfl
    rw [mutex, depth]
    exact ⟨trivial, trivial, rfl, r, codes r rfl, rfl⟩

/-- Holding the mutex and releasing it leaves the depth as it was. -/
theorem initAuto_depth (s : State) :
    (if (initAuto (lockMutex s)).master.hasMutex then (initAuto (lockMutex s)).master.mutexDepth - 1
      else (initAuto (lockMutex s)).master.mutexDepth) = s.master.mutexDepth := by
  cases h : s.master.hasMutex <;> simp_all [initAuto, lockMutex, State.updMaster, Master.hasMutex]

/-- Settles O48, clause by clause. -/
theorem autoConfigGoesOnPassByPass : Obligations.AutoConfigGoesOnPassByPass := by
  refine ⟨?call, ?later, ?confirmed, ?scan, ?cap, ?callEnds, ?laterEnds⟩
  case call =>
    intro s ready
    refine ⟨_, exec_autoConfig ready, ?_, ?_⟩
    · exact autoConfigOnly_trans (autoConfigOnly_trans (lockMutex_only s) (initAuto_only _)) (advanceAuto_only 0 _)
    · obtain ⟨passes, result, -⟩ | ⟨returned, array, depth, code⟩ := advanceAuto_registers 0 (initAuto (lockMutex s))
      · exact .inl ⟨passes, result⟩
      · exact .inr ⟨returned, array, depth.trans (initAuto_depth s), code⟩
  case later =>
    intro s k running
    refine ⟨_, step_auto running, advanceAuto_only k s, ?_, fun m cap within => ?_⟩
    · obtain ⟨passes, -, depth⟩ | ⟨returned, array, -, code⟩ := advanceAuto_registers k s
      · exact .inl ⟨passes, depth⟩
      · exact .inr ⟨returned, array, code⟩
    · rw [advanceAuto_over ((overPasses_iff _ _).2 ⟨m, cap, by omega⟩)]
      rw [passOutcome, finishAuto_master]
      exact ⟨rfl, rfl, rfl, rfl, rfl⟩
  case confirmed => exact fun s k a => ⟨scanned_keeps, scanned_all s k a⟩
  case scan =>
    intro s k
    refine ⟨fun n => (s.begun k).scannedFirst (n - 1), rfl, ?_, fun a usable => ?_⟩
    · rw [scanned_eq, scanAll]; rfl
    · rw [scanned_eq, scanAll]; exact scannedFirst_step usable
  case cap =>
    intro s ready cap
    have tooMany : overPasses (initAuto (lockMutex s)).params 1 = true := (overPasses_iff _ _).2 ⟨0, cap, by omega⟩
    refine ⟨_, exec_autoConfig ready, ?_⟩
    rw [advanceAuto_over tooMany]
    rw [passOutcome, finishAuto_master]
    exact ⟨rfl, rfl, fun a => Vector.getElem_replicate _, rfl, rfl⟩
  case callEnds =>
    intro s ready noCap
    have within : overPasses (initAuto (lockMutex s)).params 1 = false := by
      rw [← Bool.not_eq_true, overPasses_iff]
      rintro ⟨m, cap, low⟩
      obtain rfl : m = 0 := by omega
      exact noCap cap
    obtain ⟨r, t, ends, outcome⟩ := advanceAuto_ends within
    exact ⟨r, t, ends, by rw [exec_autoConfig ready, outcome]⟩
  case laterEnds =>
    intro s k running cap
    have within : overPasses s.params (k + 1) = false := by
      rw [← Bool.not_eq_true, overPasses_iff]
      rintro ⟨m, capped, low⟩
      have := cap m capped
      omega
    obtain ⟨r, t, ends, outcome⟩ := advanceAuto_ends within
    exact ⟨r, t, ends, by rw [step_auto running, outcome]⟩

end Sys2Proof.Machine
end

section
/-! SUPPORT. The invariant of the system (10 R25 to R39, 20 R97): what each family of operations does to the registers it
speaks of, and that every step keeps it. -/

namespace Sys2Proof.Machine

/-! ## Operations between lock and unlock (42 R180) -/

/-- What a public operation that exchanges frames and stores to the addresses `R` can do. -/
structure OpMove (R : Nat → Prop) (s t : State) : Prop extends LineMove s t where
  inputs : t.inputs = s.inputs
  codecOut : t.codecOut = s.codecOut
  master : t.master = { s.master with
    txbuf := t.master.txbuf, rxbuf := t.master.rxbuf, n := t.master.n
    result := t.master.result, failedAddress := t.master.failedAddress }
  result : t.master.result.isSome = true
  count : s.master.n = s.master.rxbuf.length → t.master.n = t.master.rxbuf.length
  wf : Memory.wf s.mem = true → Memory.wf t.mem = true
  read : Memory.wf s.mem = true → ∀ x, ¬R x → Memory.read t.mem x = Memory.read s.mem x

theorem hasMutex_of_transport {m k : Master} (same : k.transport = m.transport) : k.hasMutex = m.hasMutex := by
  simp only [Master.hasMutex, same]

/-- The master after an exchange under the mutex: the depth is back where it was. -/
theorem unlocked_master {R : Nat → Prop} {s u : State} (h : StoreMove R (lockMutex s) u) :
    (unlockMutex u).master = { s.master with txbuf := u.master.txbuf, rxbuf := u.master.rxbuf, n := u.master.n } := by
  have master := h.master
  have mutex : u.master.hasMutex = s.master.hasMutex := by
    rw [master, lockMutex_eq s]; rfl
  rw [unlockMutex_master, mutex, master]
  cases held : s.master.hasMutex <;> simp [held]

theorem lockMutex_setFailed (a : Addr) (s : State) : lockMutex (setFailed a s) = setFailed a (lockMutex s) := by
  have mutex : (setFailed a s).master.hasMutex = s.master.hasMutex := rfl
  cases held : s.master.hasMutex <;> simp_all [lockMutex, setFailed, State.updMaster]

/-- The whole operation from its body. -/
theorem returned_op {R : Nat → Prop} {body : State → ResultCode × State} {s q : State}
    (h : StoreMove R (setFailed (body (lockMutex s)).2.master.failedAddress (lockMutex q)) (body (lockMutex s)).2) :
    OpMove R q (returned body s) := by
  rw [← lockMutex_setFailed] at h
  have start : LineMove q (lockMutex (setFailed (body (lockMutex s)).2.master.failedAddress q)) :=
    (setFailed_line _ q).trans (lockMutex_line _)
  have line := start.trans (h.toLineMove.trans ((unlockMutex_line _).trans (report_line (body (lockMutex s)).1 _)))
  have master := unlocked_master h
  exact
    { toLineMove := line
      inputs := h.inputs
      codecOut := h.codecOut
      master := by simp only [returned, report_master, master, setFailed_master]
      result := rfl
      count := fun hc => by
        simp only [returned, report_master, master]
        refine h.count ?_
        rw [lockMutex_eq]
        exact hc
      wf := h.wf
      read := h.read }

/-- An operation that does not write `failed_address`. -/
theorem returned_exact {R : Nat → Prop} {body : State → ResultCode × State} {s : State}
    (h : StoreMove R (lockMutex s) (body (lockMutex s)).2) :
    OpMove R s (returned body s) ∧ (returned body s).master.failedAddress = s.master.failedAddress := by
  have master := unlocked_master h
  have failed : (body (lockMutex s)).2.master.failedAddress = (lockMutex s).master.failedAddress :=
    h.registers.2.2.2.2.2.2.1
  refine ⟨returned_op ?_, ?_⟩
  · rw [failed, setFailed_self]; exact h
  · simp only [returned, report_master, master]

/-- The master with every ticker moved on (42 R188). -/
def State.ticked (s : State) : State := s.updMaster fun m => { m with mirror := m.mirror.map advanceEntry }

theorem lockMutex_ticked (s : State) : lockMutex s.ticked = (lockMutex s).ticked := by
  have mutex : s.ticked.master.hasMutex = s.master.hasMutex := rfl
  cases held : s.master.hasMutex <;> simp_all [lockMutex, State.ticked, State.updMaster]

theorem lockMutex_mirror (s : State) : (lockMutex s).master.mirror = s.master.mirror := by
  rw [lockMutex_eq]

theorem lockMutex_dir (s : State) : (lockMutex s).master.dir = s.master.dir := by
  rw [lockMutex_eq]

theorem mirrorTickBody_eq (s : State) : mirrorTickBody s = mirrorPass s.master.mirror .ok s.ticked := rfl

/-- A mirror tick from the state in which the tickers have moved. -/
theorem returned_tick (s : State) :
    OpMove (FiringWrites s.master s.master.mirror) s.ticked (returned mirrorTickBody s) := by
  refine returned_op ?_
  have pass := mirrorPass_move s.master.mirror .ok (lockMutex s.ticked)
  have writes : FiringWrites (lockMutex s.ticked).master s.master.mirror = FiringWrites s.master s.master.mirror :=
    firingWrites_of_dir (lockMutex_dir _) _
  rw [writes] at pass
  rw [mirrorTickBody_eq, lockMutex_mirror, ← lockMutex_ticked]
  exact pass

theorem returned_check (s : State) : OpMove (fun _ => False) s (returned checkConfigBody s) :=
  returned_op (checkAddrs_move usableAddrs (lockMutex s)).stores

theorem returned_send (a : Addr) (c : MsgClass) (payload : List Byte) (s : State) :
    OpMove (fun _ => False) s (returned (sendBody a c payload) s) ∧
    (returned (sendBody a c payload) s).master.failedAddress = s.master.failedAddress :=
  returned_exact (sendBody_move a c payload (lockMutex s)).stores

theorem returned_receive (a : Addr) (c : MsgClass) (len : Byte) (buf : BufRef) (s : State) :
    OpMove (InBuf buf len.toNat) s (returned (receiveBody a c len buf) s) ∧
    (returned (receiveBody a c len buf) s).master.failedAddress = s.master.failedAddress :=
  returned_exact (receiveBody_move a c len buf (lockMutex s))

theorem returned_command (a : Addr) (request : Vector Byte 5) (out : BufRef) (s : State) :
    OpMove (InBuf out 5) s (returned (commandBody a request out) s) ∧
    (returned (commandBody a request out) s).master.failedAddress = s.master.failedAddress :=
  returned_exact (commandBody_move a request out (lockMutex s))

theorem returned_renum (old new : Addr) (s : State) :
    OpMove (fun _ => False) s (returned (renumBody old new) s) ∧
    (returned (renumBody old new) s).master.failedAddress = s.master.failedAddress :=
  returned_exact (renumBody_move old new (lockMutex s)).stores

/-! ## Operations on the tables of the master (42 R186, R187) -/

theorem lockMutex_of_none {s : State} (h : s.master.hasMutex = false) : lockMutex s = s := by
  simp [lockMutex, State.updMaster, h]

theorem lockMutex_of_some {s : State} (h : s.master.hasMutex = true) :
    lockMutex s = s.updMaster fun m => { m with mutexDepth := m.mutexDepth + 1 } := by
  simp [lockMutex, State.updMaster, h]

theorem unlockMutex_of_none {s : State} (h : s.master.hasMutex = false) : unlockMutex s = s := by
  simp [unlockMutex, State.updMaster, h]

theorem unlockMutex_of_some {s : State} (h : s.master.hasMutex = true) :
    unlockMutex s = s.updMaster fun m => { m with mutexDepth := m.mutexDepth - 1 } := by
  simp [unlockMutex, State.updMaster, h]

/-- An operation that writes a table of the master between lock and unlock. -/
theorem returned_table {g : Master → Master} {r : ResultCode} {s : State}
    (transport : ∀ m : Master, (g m).transport = m.transport)
    (depth : ∀ (m : Master) (d : Nat), g { m with mutexDepth := d } = { g m with mutexDepth := d }) :
    returned (fun s => (r, s.updMaster g)) s = s.updMaster fun m => { g m with result := some r } := by
  have plain : (g s.master).mutexDepth = s.master.mutexDepth := by
    have same := congrArg Master.mutexDepth (depth s.master s.master.mutexDepth)
    exact same
  have mutex : ∀ m : Master, (g m).hasMutex = m.hasMutex := fun m => hasMutex_of_transport (transport m)
  have body : returned (fun s => (r, s.updMaster g)) s = report r (unlockMutex ((lockMutex s).updMaster g)) := rfl
  cases held : s.master.hasMutex with
  | false =>
    have free : ((lockMutex s).updMaster g).master.hasMutex = false := by simp [held, mutex]
    rw [body, unlockMutex_of_none free, lockMutex_of_none held]
    rfl
  | true =>
    have taken : ((lockMutex s).updMaster g).master.hasMutex = true := by
      rw [updMaster_master, mutex, lockMutex_eq]; exact held
    have back : { g s.master with mutexDepth := s.master.mutexDepth + 1 - 1 } = g s.master := by
      rw [Nat.add_sub_cancel, ← plain]
    rw [body, unlockMutex_of_some taken, lockMutex_of_some held]
    simp only [report, State.updMaster]
    rw [depth s.master (s.master.mutexDepth + 1)]
    exact congrArg (fun m => { s with master := { m with result := some r } }) back

/-- Declaring touches the directory alone. -/
theorem declare_eq (m : Master) (d : Decl) : m.declare d = { m with dir := (m.declare d).dir } := rfl

theorem decl_setDecl (m : Master) (a b : Addr) (e : DirEntry) : (m.setDecl a e).decl b = if b = a then e else m.decl b := by
  simp only [Master.decl, Master.setDecl, Vector.get_eq_getElem, Vector.getElem_set, BitVec.val_toFin]
  simp only [BitVec.toNat_eq, eq_comm]

theorem declare_decl (m : Master) (d : Decl) (a : Addr) :
    (m.declare d).decl a = if a = d.addr then ⟨true, d.devType, d.slots⟩ else m.decl a := decl_setDecl m d.addr a _

/-- The directory after a list of declarations. -/
def declareAll (decls : List Decl) (m : Master) : Master := decls.foldl Master.declare m

theorem declareAll_cons (d : Decl) (decls : List Decl) (m : Master) :
    declareAll (d :: decls) m = declareAll decls (m.declare d) := rfl

theorem declareAll_eq : ∀ (decls : List Decl) (m : Master),
    declareAll decls m = { m with dir := (declareAll decls m).dir }
  | [], _ => rfl
  | d :: decls, m => by
    rw [declareAll_cons, declareAll_eq decls (m.declare d), declare_eq m d]

theorem declareAll_depth : ∀ (decls : List Decl) (m : Master) (k : Nat),
    declareAll decls { m with mutexDepth := k } = { declareAll decls m with mutexDepth := k }
  | [], _, _ => rfl
  | d :: decls, m, k => declareAll_depth decls (m.declare d) k

/-- An entry after the declarations: the last one that names it, or as it was. -/
theorem declareAll_decl : ∀ (decls : List Decl) (m : Master) (a : Addr),
    (∃ d ∈ decls, d.addr = a ∧ (declareAll decls m).decl a = ⟨true, d.devType, d.slots⟩) ∨
    ((∀ d ∈ decls, d.addr ≠ a) ∧ (declareAll decls m).decl a = m.decl a)
  | [], _, _ => .inr ⟨by simp, rfl⟩
  | d :: decls, m, a => by
    rw [declareAll_cons]
    obtain ⟨e, member, named, entry⟩ | ⟨notNamed, entry⟩ := declareAll_decl decls (m.declare d) a
    · exact .inl ⟨e, List.mem_cons_of_mem d member, named, entry⟩
    · rw [declare_decl] at entry
      by_cases here : a = d.addr
      · exact .inl ⟨d, List.mem_cons_self, here.symm, by rw [entry, if_pos here]⟩
      · refine .inr ⟨?_, by rw [entry, if_neg here]⟩
        simp only [List.mem_cons, forall_eq_or_imp]
        exact ⟨fun h => here h.symm, notNamed⟩

theorem clearDir_decl (m : Master) (a : Addr) : m.clearDir.decl a = { m.decl a with valid := false } := by
  simp only [Master.decl, clearDir_dir, Vector.get_eq_getElem, Vector.getElem_map]

theorem returned_devices (decls : List Decl) (s : State) :
    returned (defineDevicesBody decls) s = s.updMaster fun m => { declareAll decls m.clearDir with result := some .ok } :=
  returned_table (g := fun m => declareAll decls m.clearDir) (fun m => by rw [declareAll_eq]; rfl)
    fun m k => declareAll_depth decls m.clearDir k

theorem returned_mirroring (defs : List MirrorDef) (s : State) :
    returned (defineMirroringBody defs) s =
      s.updMaster fun m => { m with mirror := defs.map installMirror, result := some .ok } :=
  returned_table (g := fun m => { m with mirror := defs.map installMirror }) (fun _ => rfl) fun _ _ => rfl

/-! ## What is refused (30 R116, 42 R186, R187) -/

/-- A list of declarations passes the first check exactly if its addresses are usable and differ. -/
theorem checkDecls_eq_none : ∀ {decls : List Decl},
    checkDecls decls = none ↔ (∀ d ∈ decls, d.addr ≠ 0 ∧ d.addr ≠ 31) ∧ (decls.map Decl.addr).Nodup
  | [] => by simp [checkDecls]
  | d :: decls => by
    unfold checkDecls
    by_cases reserved : d.addr = 0 ∨ d.addr = 31
    · rw [if_pos reserved]
      simp only [reduceCtorEq, false_iff, not_and]
      intro all
      obtain ⟨notZero, notLast⟩ := all d List.mem_cons_self
      exact absurd reserved (by simp only [not_or]; exact ⟨notZero, notLast⟩)
    · rw [if_neg reserved]
      simp only [not_or] at reserved
      by_cases repeated : d.addr ∈ decls.map Decl.addr
      · have found : decls.any (fun e => e.addr = d.addr) = true := by simpa using repeated
        rw [if_pos found]
        simp [repeated]
      · have missing : ¬decls.any (fun e => e.addr = d.addr) = true := by simpa using repeated
        rw [if_neg missing, checkDecls_eq_none, List.map_cons, List.nodup_cons, List.forall_mem_cons]
        exact ⟨fun ⟨all, nodup⟩ => ⟨⟨reserved, all⟩, repeated, nodup⟩, fun ⟨⟨_, all⟩, _, nodup⟩ => ⟨all, nodup⟩⟩

theorem checkMirrorDef_eq_none {d : MirrorDef} :
    checkMirrorDef d = none ↔ d.slot ≠ Config.cmdClass ∧ d.phase < d.period := by
  unfold checkMirrorDef
  by_cases slot : d.slot = Config.cmdClass
  · simp [slot]
  · rw [if_neg slot]
    by_cases zero : d.period = 0
    · rw [if_pos zero, zero]
      simp
    · rw [if_neg zero]
      split <;> simp_all

theorem checkMirrorDefs_eq_none : ∀ {defs : List MirrorDef},
    checkMirrorDefs defs = none ↔ ∀ d ∈ defs, d.slot ≠ Config.cmdClass ∧ d.phase < d.period
  | [] => by simp [checkMirrorDefs]
  | d :: defs => by
    simp only [checkMirrorDefs, Option.or_eq_none_iff, checkMirrorDef_eq_none, checkMirrorDefs_eq_none,
      List.forall_mem_cons]

/-- DEFINE_DEVICES runs exactly on the lists R186 allows. -/
theorem declRefusal_eq_none {decls : List Decl} {s : State} :
    declRefusal decls s = none ↔ ((∀ d ∈ decls, d.addr ≠ 0 ∧ d.addr ≠ 31) ∧ (decls.map Decl.addr).Nodup) ∧
      ∀ d ∈ decls, ∀ slot ∈ d.slots.toList, slot.len.toNat ≤ s.params.maxPayload := by
  rw [← checkDecls_eq_none]
  unfold declRefusal
  cases checked : checkDecls decls with
  | some e => simp
  | none => simp only [declFits, List.all_eq_true, decide_eq_true_eq, ite_eq_left_iff, reduceCtorEq, imp_false, not_not, true_and]

/-- A mirror list that is not refused is well formed. -/
theorem mirrorRefusal_none {defs : List MirrorDef} {s : State} (h : mirrorRefusal defs s = none) :
    ∀ d ∈ defs, d.slot ≠ Config.cmdClass ∧ d.phase < d.period := by
  unfold mirrorRefusal at h
  cases checked : checkMirrorDefs defs with
  | some e => simp [checked] at h
  | none => exact checkMirrorDefs_eq_none.1 checked

/-! ## The invariant, part by part -/

/-- The invariant of the line. -/
def State.LineSound (s : State) : Prop :=
  s.bus.breakOn = false ∧ (∀ x ∈ s.bus.inFlight, x.1 < s.slaves.length) ∧ ∀ sl ∈ s.slaves, sl.Sound

/-- The invariant of the master, the parameters among it. -/
def State.MasterSound (s : State) : Prop :=
  (∀ (a : Addr) (c : MsgClass), (s.master.slotOf a c).len.toNat ≤ s.params.maxPayload) ∧
  s.master.timeoutUs = s.params.timeoutUs ∧ s.master.Sound

theorem inv_iff (s : State) : s.Inv ↔ Memory.wf s.mem = true ∧ s.LineSound ∧ s.MasterSound := by
  constructor
  · rintro ⟨wf, slots, timeout, noBreak, inFlight, slaves, master⟩
    exact ⟨wf, ⟨noBreak, inFlight, slaves⟩, slots, timeout, master⟩
  · rintro ⟨wf, ⟨noBreak, inFlight, slaves⟩, slots, timeout, master⟩
    exact ⟨wf, slots, timeout, noBreak, inFlight, slaves, master⟩

theorem LineMove.sound {s t : State} (h : LineMove s t) (hs : s.LineSound) : t.LineSound := by
  obtain ⟨noBreak, inFlight, slaves⟩ := hs
  exact ⟨h.breakOn noBreak, h.inFlight inFlight,
    forall_of_evolves (fun e sl f => eventKeepsSlaveSound s.params e sl f) h.slaves slaves⟩

theorem BusMove.inv {s t : State} (h : BusMove s t) (hs : s.Inv) : t.Inv := by
  rw [inv_iff] at hs ⊢
  obtain ⟨wf, line, master⟩ := hs
  refine ⟨h.mem ▸ wf, h.line.sound line, ?_⟩
  rw [State.MasterSound, h.params, h.master]
  exact master

/-- The buffers, the result and the reported address carry no invariant but the count. -/
theorem masterSound_of_buffers {s t : State} (hs : s.MasterSound) (params : t.params = s.params)
    (master : t.master = { s.master with
      txbuf := t.master.txbuf, rxbuf := t.master.rxbuf, n := t.master.n
      result := t.master.result, failedAddress := t.master.failedAddress })
    (count : t.master.n = t.master.rxbuf.length) : t.MasterSound := by
  obtain ⟨slots, timeout, initialized, running, depth, first, last, mirror, res0, res31, res, out0, out31, -⟩ := hs
  rw [State.MasterSound, params]
  rw [master] at count ⊢
  exact ⟨slots, timeout, initialized, running, depth, first, last, mirror, res0, res31, res, out0, out31, count⟩

theorem State.MasterSound.count {s : State} (h : s.MasterSound) : s.master.n = s.master.rxbuf.length :=
  h.2.2.2.2.2.2.2.2.2.2.2.2.2

theorem OpMove.inv {R : Nat → Prop} {s t : State} (h : OpMove R s t) (hs : s.Inv) : t.Inv := by
  rw [inv_iff] at hs ⊢
  obtain ⟨wf, line, master⟩ := hs
  exact ⟨h.wf wf, h.toLineMove.sound line,
    masterSound_of_buffers master h.params h.master (h.count master.count)⟩

/-- A change of the master alone. -/
theorem updMaster_inv {g : Master → Master} {s : State} (hs : s.Inv) (h : (s.updMaster g).MasterSound) :
    (s.updMaster g).Inv := by
  rw [inv_iff] at hs ⊢
  obtain ⟨wf, line, -⟩ := hs
  exact ⟨wf, (updMaster_line g s).sound line, h⟩

/-! ## Each operation on the master keeps it -/

theorem advanceEntry_sound {e : MirrorEntry} (h : e.Sound) : (advanceEntry e).Sound := by
  obtain ⟨slot, phase, -⟩ := h
  have positive : 0 < e.period.toNat := by
    have := BitVec.lt_def.1 phase
    omega
  refine ⟨slot, phase, ?_⟩
  rw [BitVec.lt_def, advanceEntry, BitVec.toNat_umod]
  exact Nat.mod_lt _ positive

theorem ticked_inv {s : State} (hs : s.Inv) : s.ticked.Inv := by
  refine updMaster_inv hs ?_
  obtain ⟨-, -, slots, timeout, initialized, running, depth, first, last, mirror, rest⟩ := (inv_iff s).1 hs
  refine ⟨slots, timeout, initialized, running, depth, first, last, fun e he => ?_, rest⟩
  obtain ⟨old, member, rfl⟩ := List.mem_map.1 he
  exact advanceEntry_sound (mirror old member)

theorem installMirror_sound {d : MirrorDef} (slot : d.slot ≠ Config.cmdClass) (phase : d.phase < d.period) :
    (installMirror d).Sound := by
  refine ⟨slot, phase, ?_⟩
  have := BitVec.lt_def.1 phase
  rw [BitVec.lt_def]
  simp only [installMirror]
  exact Nat.lt_of_le_of_lt (Nat.zero_le _) this

theorem mirroring_inv {defs : List MirrorDef} {s : State} (hs : s.Inv) (accepted : mirrorRefusal defs s = none) :
    (returned (defineMirroringBody defs) s).Inv := by
  rw [returned_mirroring]
  refine updMaster_inv hs ?_
  obtain ⟨-, -, slots, timeout, initialized, running, depth, first, last, -, rest⟩ := (inv_iff s).1 hs
  refine ⟨slots, timeout, initialized, running, depth, first, last, fun e he => ?_, rest⟩
  obtain ⟨d, member, rfl⟩ := List.mem_map.1 he
  obtain ⟨slot, phase⟩ := mirrorRefusal_none accepted d member
  exact installMirror_sound slot phase

theorem slotOf_eq (m : Master) (a : Addr) (c : MsgClass) : m.slotOf a c = (m.decl a).slots.get c.toFin := rfl

theorem devices_inv {decls : List Decl} {s : State} (hs : s.Inv) (accepted : declRefusal decls s = none) :
    (returned (defineDevicesBody decls) s).Inv := by
  rw [returned_devices]
  refine updMaster_inv hs ?_
  obtain ⟨-, -, slots, timeout, initialized, running, depth, -, -, rest⟩ := (inv_iff s).1 hs
  obtain ⟨⟨usable, -⟩, fit⟩ := declRefusal_eq_none.1 accepted
  have entries := declareAll_decl decls s.master.clearDir
  have undeclared : ∀ a : Addr, a = 0 ∨ a = 31 → ((declareAll decls s.master.clearDir).decl a).valid = false := by
    intro a reserved
    obtain ⟨d, member, rfl, -⟩ | ⟨-, entry⟩ := entries a
    · obtain ⟨notZero, notLast⟩ := usable d member
      exact absurd reserved (by simp only [not_or]; exact ⟨notZero, notLast⟩)
    · rw [entry, clearDir_decl]
  have lengths : ∀ (a : Addr) (c : MsgClass),
      ((declareAll decls s.master.clearDir).slotOf a c).len.toNat ≤ s.params.maxPayload := by
    intro a c
    rw [slotOf_eq]
    obtain ⟨d, member, -, entry⟩ | ⟨-, entry⟩ := entries a
    · rw [entry]
      exact fit d member _ (by simp [Vector.get_eq_getElem])
    · rw [entry, clearDir_decl]
      exact slots a c
  rw [State.MasterSound, updMaster_master, updMaster_params]
  have first := undeclared 0 (.inl rfl)
  have last := undeclared 31 (.inr rfl)
  rw [declareAll_eq] at lengths first last ⊢
  exact ⟨lengths, timeout, initialized, running, depth, first, last, rest⟩

theorem init_inv {mutex : Bool} {s : State} (hs : s.Inv) (idle : s.master.autoPasses = none) :
    (report .ok (s.updMaster fun m => { m with transport := some ⟨mutex⟩, initialized := true })).Inv := by
  refine updMaster_inv (s := s)
    (g := fun m => { m with transport := some ⟨mutex⟩, initialized := true, result := some .ok }) hs ?_
  obtain ⟨-, -, slots, timeout, -, -, depth, rest⟩ := (inv_iff s).1 hs
  have released : s.master.mutexDepth = 0 := by simpa [idle] using depth
  refine ⟨slots, timeout, by simp, fun _ => rfl, ?_, rest⟩
  simp [idle, released]

theorem report_inv {s : State} (hs : s.Inv) (r : ResultCode) : (report r s).Inv := by
  refine updMaster_inv hs ?_
  obtain ⟨-, -, master⟩ := (inv_iff s).1 hs
  exact masterSound_of_buffers master rfl rfl master.count

/-! ## AUTO_CONFIG keeps it -/

theorem begun_inv {s : State} (hs : s.Inv) (k : Nat) (running : s.master.autoPasses.isSome = true) : (s.begun k).Inv := by
  refine updMaster_inv (g := fun m => { m with autoPasses := some k }) hs ?_
  obtain ⟨-, -, slots, timeout, initialized, on, depth, rest⟩ := (inv_iff s).1 hs
  refine ⟨slots, timeout, initialized, fun _ => on running, ?_, rest⟩
  simpa [running, Master.hasMutex] using depth

theorem AutoMove.inv {s t : State} (h : AutoMove s t) (hs : s.Inv) : t.Inv := by
  rw [inv_iff] at hs ⊢
  obtain ⟨wf, line, master⟩ := hs
  have counted := h.count master.count
  refine ⟨h.mem ▸ wf, h.toLineMove.sound line, ?_⟩
  obtain ⟨slots, timeout, initialized, running, depth, first, last, mirror, res0, res31, res, out0, out31, -⟩ := master
  have keeps0 := (h.unusable 0 (by decide)).trans res0
  have keeps31 := (h.unusable 31 (by decide)).trans res31
  have sound := h.sound res
  rw [State.MasterSound, h.params]
  rw [h.master] at counted keeps0 keeps31 sound ⊢
  exact ⟨slots, timeout, initialized, running, depth, first, last, mirror, keeps0, keeps31, sound, out0, out31, counted⟩

theorem finishAuto_inv {s : State} (hs : s.Inv) (running : s.master.autoPasses.isSome = true) (r : ResultCode) :
    (finishAuto r s).Inv := by
  have master := finishAuto_master r s
  rw [inv_iff] at hs ⊢
  obtain ⟨wf, line, slots, timeout, initialized, -, depth, first, last, mirror, res0, res31, res, -, -, count⟩ := hs
  have released : (if s.master.hasMutex then s.master.mutexDepth - 1 else s.master.mutexDepth) = 0 := by
    rw [depth, running]
    cases s.master.hasMutex <;> rfl
  refine ⟨wf, LineMove.sound (.of_eq rfl rfl rfl) line, ?_⟩
  have params : (finishAuto r s).params = s.params := rfl
  rw [State.MasterSound, params, master, released]
  exact ⟨slots, timeout, initialized, nofun, rfl, first, last, mirror, res0, res31, res, res0, res31, count⟩

theorem advanceAuto_inv {s : State} (hs : s.Inv) (k : Nat) (running : s.master.autoPasses.isSome = true) :
    (advanceAuto k s).Inv := by
  obtain ⟨r, t, move, -, outcome⟩ := advanceAuto_auto k s
  have kept := move.inv (begun_inv hs (k + 1) running)
  rw [outcome]
  cases r with
  | none => exact kept
  | some r => exact finishAuto_inv kept (by rw [move.master]; rfl) r

theorem initAuto_inv {s : State} (hs : s.Inv) (ready : s.Ready) : (initAuto (lockMutex s)).Inv := by
  obtain ⟨on, idle⟩ := ready
  rw [inv_iff] at hs ⊢
  obtain ⟨wf, line, slots, timeout, initialized, -, depth, first, last, mirror, -, -, -, out0, out31, count⟩ := hs
  have released : s.master.mutexDepth = 0 := by simpa [idle] using depth
  refine ⟨wf, LineMove.sound (.of_eq rfl rfl rfl) line, ?_⟩
  have params : (initAuto (lockMutex s)).params = s.params := rfl
  have master : (initAuto (lockMutex s)).master = { s.master with
      res := Vector.replicate 32 .rescan, renumbered := false, swapped := false, result := none, autoPasses := some 0
      mutexDepth := if s.master.hasMutex then 1 else 0 } := by
    cases held : s.master.hasMutex <;> simp [initAuto, held, released]
  have rescan : ∀ a : Addr, (Vector.replicate 32 ScanResult.rescan).get a.toFin = .rescan := fun a =>
    Vector.getElem_replicate _
  rw [State.MasterSound, params, master]
  exact ⟨slots, timeout, initialized, fun _ => on, rfl, first, last, mirror, rescan 0, rescan 31,
    fun a => .inl (rescan a), out0, out31, count⟩

/-! ## Every instruction and every step -/

theorem Ran.inv {i : Instr} {s t : State} (h : Ran i s t) (hs : s.Inv) : t.Inv := by
  cases h with
  | frame f s _ => exact (frameOnWire_move f s).inv hs
  | pure out s _ => exact hs
  | turnedAway s _ => exact report_inv hs _
  | init mutex s idle => exact init_inv hs idle
  | send a c payload s _ => exact (returned_send a c payload s).1.inv hs
  | receive a c len buf s _ => exact (returned_receive a c len buf s).1.inv hs
  | command a request out s _ => exact (returned_command a request out s).1.inv hs
  | devices decls s _ accepted => exact devices_inv hs accepted
  | mirroring defs s _ accepted => exact mirroring_inv hs accepted
  | tick s _ => exact (returned_tick s).inv (ticked_inv hs)
  | renum old new s _ => exact (returned_renum old new s).1.inv hs
  | check s _ => exact (returned_check s).inv hs
  | auto s ready => exact advanceAuto_inv (initAuto_inv hs ready) 0 rfl

theorem restart_sound (sl : Slave) : sl.restart.Sound := sound_of_waiting rfl rfl rfl

theorem resetSlaveAt_inv {s : State} (hs : s.Inv) (k : Nat) : (resetSlaveAt k s).Inv := by
  rw [inv_iff] at hs ⊢
  obtain ⟨wf, ⟨noBreak, inFlight, slaves⟩, master⟩ := hs
  refine ⟨wf, ⟨noBreak, fun x hx => ?_, fun sl hsl => ?_⟩, master⟩
  · simpa using inFlight x hx
  · rw [resetSlaveAt_slaves] at hsl
    obtain ⟨j, at_j⟩ := List.getElem?_of_mem hsl
    rw [List.getElem?_modify] at at_j
    obtain ⟨old, before, rfl⟩ := Option.map_eq_some_iff.1 at_j
    split
    · exact restart_sound old
    · exact slaves old (List.mem_of_getElem? before)

theorem blank_slot (c : MsgClass) : (DirEntry.blank.slots.get c.toFin).len = 0 := by
  have slot : DirEntry.blank.slots.get c.toFin = ⟨false, .m2s, 0⟩ := Vector.getElem_replicate _
  rw [slot]

/-- The master after its reset, whatever was before. -/
theorem masterSound_afterReset {s : State} (master : s.master = Master.afterReset s.params) : s.MasterSound := by
  have rescan : ∀ a : Addr, (Vector.replicate 32 ScanResult.rescan).get a.toFin = .rescan := fun a =>
    Vector.getElem_replicate _
  have undeclared : ∀ a, ((Master.afterReset s.params).decl a).valid = false := fun a => by
    rw [masterAfterReset_decl, blank_valid]
  rw [State.MasterSound, master]
  refine ⟨fun a c => ?_, rfl, by simp, nofun, rfl, undeclared 0, undeclared 31, nofun, rescan 0, rescan 31,
    fun a => .inl (rescan a), rescan 0, rescan 31, rfl⟩
  rw [slotOf_eq, masterAfterReset_decl, blank_slot]
  exact Nat.zero_le _

/-- Whatever the outside world hands the machine. -/
theorem takeInput_inv {i : Input} {s t : State} (hs : s.Inv) (h : takeInput i s = .next t) : t.Inv := by
  cases i with
  | request r =>
    simp only [takeInput, runRequest] at h
    split at h
    · exact (exec_ran h).inv hs
    · unfold runRaw at h
      split at h
      · cases h; exact (frameOnWire_move _ s).inv hs
      · cases h
      · cases h
  | event k e => cases h; exact (eventAt_move k e s).inv hs
  | lineBreak => cases h; exact (sendBreak_move s).inv hs
  | lineByte b => cases h; exact (slot_move _ s).inv hs
  | elapse => cases h; exact (busTurn_move s).inv hs
  | resetSlave k => cases h; exact resetSlaveAt_inv hs k
  | resetMaster =>
    cases h
    exact updMaster_inv (g := fun _ => Master.afterReset s.params) hs (masterSound_afterReset rfl)
  | hostWrite buf bytes =>
    cases h
    obtain ⟨wf, rest⟩ := hs
    exact ⟨store_wf _ _ _ wf, rest⟩
  | supply draws => cases h; exact hs
  | disturb noise => cases h; exact hs

/-- Settles O58: a pass of AUTO_CONFIG, a turn of the bus, or an input. -/
theorem stepKeepsTheSystemSound : Obligations.StepKeepsTheSystemSound := by
  intro s t hs h
  unfold step at h
  split at h
  · rename_i k running
    cases h
    exact advanceAuto_inv hs k (by rw [running]; rfl)
  · split at h
    · cases h; exact (busTurn_move s).inv hs
    · rename_i i rest _
      exact takeInput_inv (s := { s with inputs := rest }) hs h

theorem afterReset_inv (p : Params) (cs : List SlaveConfig) : (State.afterReset p cs).Inv := by
  rw [inv_iff]
  refine ⟨rfl, ⟨rfl, nofun, fun sl member => ?_⟩, masterSound_afterReset rfl⟩
  obtain ⟨c, -, rfl⟩ := List.mem_map.1 member
  exact sound_of_waiting rfl rfl rfl

/-- Settles O59: the slaves and the master after their resets, on an idle bus. -/
theorem resetMeetsTheInvariant : Obligations.ResetMeetsTheInvariant :=
  ⟨afterReset_inv _ _, afterReset_inv⟩

end Sys2Proof.Machine
end

section
/-! SUPPORT. Who writes what (42 R180 to R193, 20 R70): the registers, the memory and the identities, read off the ways an
instruction and a step can go. -/

namespace Sys2Proof.Machine

/-! ## The line of every instruction -/

theorem passOutcome_line (r : Option ResultCode) (t : State) : LineMove t (passOutcome r t) := by
  cases r with
  | none => exact .refl t
  | some r => exact .of_eq rfl rfl rfl

theorem advanceAuto_line (k : Nat) (s : State) : LineMove s (advanceAuto k s) := by
  obtain ⟨r, t, move, -, outcome⟩ := advanceAuto_auto k s
  rw [outcome]
  exact (LineMove.of_eq rfl rfl rfl : LineMove s (s.begun (k + 1))).trans
    (move.toLineMove.trans (passOutcome_line r t))

theorem Ran.line {i : Instr} {s t : State} (h : Ran i s t) : LineMove s t := by
  cases h with
  | frame f s _ => exact (frameOnWire_move f s).line
  | pure out s _ => exact .of_eq rfl rfl rfl
  | turnedAway s _ => exact report_line _ s
  | init mutex s _ => exact .of_eq rfl rfl rfl
  | send a c payload s _ => exact (returned_send a c payload s).1.toLineMove
  | receive a c len buf s _ => exact (returned_receive a c len buf s).1.toLineMove
  | command a request out s _ => exact (returned_command a request out s).1.toLineMove
  | devices decls s _ _ => rw [returned_devices]; exact updMaster_line _ s
  | mirroring defs s _ _ => rw [returned_mirroring]; exact updMaster_line _ s
  | tick s _ => exact (updMaster_line _ s).trans (returned_tick s).toLineMove
  | renum old new s _ => exact (returned_renum old new s).1.toLineMove
  | check s _ => exact (returned_check s).toLineMove
  | auto s _ => exact (LineMove.of_eq rfl rfl rfl : LineMove s (initAuto (lockMutex s))).trans (advanceAuto_line 0 _)

/-- Whatever the outside world hands the machine moves the line, or resets one slave. -/
theorem takeInput_line {i : Input} {s t : State} (h : takeInput i s = .next t) :
    LineMove s t ∨ ∃ k, t = resetSlaveAt k s := by
  cases i with
  | request r =>
    simp only [takeInput, runRequest] at h
    split at h
    · exact .inl (exec_ran h).line
    · unfold runRaw at h
      split at h
      · cases h; exact .inl (frameOnWire_move _ s).line
      · cases h
      · cases h
  | event k e => cases h; exact .inl (eventAt_move k e s).line
  | lineBreak => cases h; exact .inl (sendBreak_move s).line
  | lineByte b => cases h; exact .inl (slot_move _ s).line
  | elapse => cases h; exact .inl (busTurn_move s).line
  | resetSlave k => cases h; exact .inr ⟨k, rfl⟩
  | resetMaster => cases h; exact .inl (.of_eq rfl rfl rfl)
  | hostWrite buf bytes => cases h; exact .inl (.of_eq rfl rfl rfl)
  | supply draws => cases h; exact .inl (.of_eq rfl rfl rfl)
  | disturb noise => cases h; exact .inl ⟨rfl, evolves_all_refl _ _, id, id⟩

/-! ## Identities (10 R27, 00 R16) -/

theorem made_of_evolves {p : Params} : ∀ {xs ys : List Slave}, List.Forall₂ (Evolves p) xs ys →
    ys.map Slave.made = xs.map Slave.made
  | _, _, .nil => rfl
  | _, _, .cons first rest => by
    rw [List.map_cons, List.map_cons, first.field (g := Slave.made) (onEvent_made p), made_of_evolves rest]

theorem restart_made (sl : Slave) : sl.restart.made = sl.made := rfl

theorem resetSlaveAt_made (k : Nat) (xs : List Slave) : (xs.modify k Slave.restart).map Slave.made = xs.map Slave.made := by
  apply List.ext_getElem?
  intro j
  simp only [List.getElem?_map, List.getElem?_modify]
  cases xs[j]? with
  | none => rfl
  | some x =>
    by_cases here : k = j
    · simp [here, restart_made]
    · simp [here]

/-- Settles O60: an evolving slave and a reset slave keep what they are made with. -/
theorem identityNeverChanges : Obligations.IdentityNeverChanges := by
  intro s t h
  have kept : ∀ {q : State}, q.params = s.params → q.slaves = s.slaves → LineMove q t →
      t.params = s.params ∧ t.slaves.map Slave.made = s.slaves.map Slave.made := fun params slaves line =>
    ⟨line.params.trans params, slaves ▸ made_of_evolves line.slaves⟩
  unfold step at h
  split at h
  · cases h; exact kept rfl rfl (advanceAuto_line _ s)
  · split at h
    · cases h; exact kept rfl rfl (busTurn_move s).line
    · rename_i i rest _
      obtain line | ⟨k, rfl⟩ := takeInput_line h
      · exact kept (q := { s with inputs := rest }) rfl rfl line
      · exact ⟨rfl, resetSlaveAt_made k s.slaves⟩

/-! ## Registers (42 R180 to R193) -/

/-- The master after an operation that exchanges frames. -/
theorem OpMove.registers {R : Nat → Prop} {s t : State} (h : OpMove R s t) :
    ∃ (tx rx : List Byte) (n : Nat) (r : ResultCode) (failed : Addr), t.master = { s.master with
      txbuf := tx, rxbuf := rx, n := n, result := some r, failedAddress := failed } := by
  obtain ⟨r, code⟩ := Option.isSome_iff_exists.1 h.result
  exact ⟨_, _, _, r, _, by rw [← code]; exact h.master⟩

/-- The master after an operation that exchanges frames and reports no address. -/
theorem OpMove.registers_exact {R : Nat → Prop} {s t : State} (h : OpMove R s t)
    (same : t.master.failedAddress = s.master.failedAddress) :
    ∃ (tx rx : List Byte) (n : Nat) (r : ResultCode), t.master = { s.master with
      txbuf := tx, rxbuf := rx, n := n, result := some r } := by
  obtain ⟨tx, rx, n, r, failed, master⟩ := h.registers
  obtain rfl : failed = s.master.failedAddress := by rw [← same, master]
  exact ⟨tx, rx, n, r, master⟩

theorem port_of_public {i : Instr} (h : isPublicOp i = true) : (encode i).port = .host := by
  cases i with
  | sendMessage | receiveMessage | sendCmdMessage | defineDevices | defineMirroring | mirrorTick | renumId | checkConfig
  | autoConfig => rfl
  | _ => cases h

/-- Settles O56, one way of answering after the other. -/
theorem registersBelongToTheirOperations : Obligations.RegistersBelongToTheirOperations := by
  intro i s t h
  cases exec_ran h with
  | frame f _ wire =>
    have move := frameOnWire_move f s
    simp [move.params, move.inputs, move.master, move.mem, move.codecOut, wire]
  | pure out _ codec => simp [codec]
  | turnedAway _ isPublic => simp [port_of_public isPublic]
  | init mutex _ _ => simp [encode]
  | send a c payload _ _ =>
    obtain ⟨op, failed⟩ := returned_send a c payload s
    obtain ⟨tx, rx, n, r, master⟩ := op.registers_exact failed
    simp [op.params, op.inputs, op.codecOut, master, isExchangeOp, encode]
  | receive a c len buf _ _ =>
    obtain ⟨op, failed⟩ := returned_receive a c len buf s
    obtain ⟨tx, rx, n, r, master⟩ := op.registers_exact failed
    simp [op.params, op.inputs, op.codecOut, master, isExchangeOp, encode]
  | command a request out _ _ =>
    obtain ⟨op, failed⟩ := returned_command a request out s
    obtain ⟨tx, rx, n, r, master⟩ := op.registers_exact failed
    simp [op.params, op.inputs, op.codecOut, master, isExchangeOp, encode]
  | renum old new _ _ =>
    obtain ⟨op, failed⟩ := returned_renum old new s
    obtain ⟨tx, rx, n, r, master⟩ := op.registers_exact failed
    simp [op.params, op.inputs, op.codecOut, master, isExchangeOp, encode]
  | check _ _ =>
    have op := returned_check s
    obtain ⟨tx, rx, n, r, failed, master⟩ := op.registers
    simp [op.params, op.inputs, op.codecOut, master, isExchangeOp, encode]
  | tick _ _ =>
    have op := returned_tick s
    obtain ⟨tx, rx, n, r, failed, master⟩ := op.registers
    simp [op.params, op.inputs, op.codecOut, master, isExchangeOp, encode, State.ticked]
  | devices decls _ _ _ =>
    have dir := declareAll_eq decls s.master.clearDir
    simp only [returned_devices]
    rw [updMaster_master, dir]
    simp [encode]
  | mirroring defs _ _ _ =>
    simp only [returned_mirroring]
    simp [encode]
  | auto _ _ =>
    obtain ⟨params, -, inputs, codecOut, master⟩ :=
      autoConfigOnly_trans (autoConfigOnly_trans (lockMutex_only s) (initAuto_only _)) (advanceAuto_only 0 _)
    rw [master]
    simp [params, inputs, codecOut, isExchangeOp, encode]

/-! ## Memory (20 R70) -/

/-- Settles O57: only the operations that store to a buffer change memory, and only in it. -/
theorem memoryBelongsToTheReceivers : Obligations.MemoryBelongsToTheReceivers := by
  intro i s t h wf x changed
  have untouched : ∀ {R : Nat → Prop} {q : State}, OpMove R q t → q.mem = s.mem → R x := fun op mem => by
    by_contra outside
    exact changed (mem ▸ op.read (mem ▸ wf) x outside)
  cases exec_ran h with
  | frame f _ _ => exact absurd (by rw [(frameOnWire_move f s).mem]) changed
  | pure out _ _ => exact absurd rfl changed
  | turnedAway _ _ => exact absurd rfl changed
  | init mutex _ _ => exact absurd rfl changed
  | send a c payload _ _ => exact (untouched (returned_send a c payload s).1 rfl).elim
  | receive a c len buf _ _ =>
    exact .inl ⟨a, c, len, buf, rfl, untouched (returned_receive a c len buf s).1 rfl⟩
  | command a request out _ _ =>
    exact .inr (.inl ⟨a, request, out, rfl, untouched (returned_command a request out s).1 rfl⟩)
  | devices decls _ _ _ => exact absurd (by rw [returned_devices, updMaster_mem]) changed
  | mirroring defs _ _ _ => exact absurd (by rw [returned_mirroring, updMaster_mem]) changed
  | tick _ _ =>
    obtain ⟨e, member, firing, dir, inside⟩ := untouched (returned_tick s) rfl
    exact .inr (.inr ⟨rfl, e, member, by simpa [fires] using firing, dir, inside⟩)
  | renum old new _ _ => exact (untouched (returned_renum old new s).1 rfl).elim
  | check _ _ => exact (untouched (returned_check s) rfl).elim
  | auto _ _ =>
    obtain ⟨-, mem, -⟩ :=
      autoConfigOnly_trans (autoConfigOnly_trans (lockMutex_only s) (initAuto_only _)) (advanceAuto_only 0 _)
    exact absurd (by rw [mem]) changed

end Sys2Proof.Machine
end

section
/-! SUPPORT. The host's operations (42 R182 to R190): what they refuse, the codes of an exchange in the order of the tests, the
tables they replace. -/

namespace Sys2Proof.Machine

/-! ## Refused by name (30 R116, 93 U5, U7, U13) -/

theorem masterOp_refused {bad : Option Refusal} {r : Refusal} (body : State → ResultCode × State) {s : State}
    (ready : s.Ready) (h : bad = some r) : masterOp bad body s = .refused r := by
  obtain ⟨on, idle⟩ := ready
  simp [masterOp, on, idle, h]

/-- While an AUTO_CONFIG is in progress nothing else runs. -/
theorem masterOp_busy (bad : Option Refusal) (body : State → ResultCode × State) {s : State}
    (on : s.master.initialized = true) (busy : s.master.autoPasses.isSome = true) :
    masterOp bad body s = .refused .operationInProgress := by
  simp [masterOp, on, busy]

theorem dataRefusal_class (len : Nat) (s : State) :
    dataRefusal Config.cmdClass len s = some (.operandOutOfRange .classNotData) := by
  simp [dataRefusal, checkClass]

theorem dataRefusal_long {c : MsgClass} {len : Nat} {s : State} (data : c ≠ Config.cmdClass)
    (long : s.params.maxPayload < len) : dataRefusal c len s = some .payloadTooLong := by
  simp [dataRefusal, checkClass, data, tooLong, long]

theorem dataRefusal_none {c : MsgClass} {len : Nat} {s : State} (data : c ≠ Config.cmdClass)
    (fits : len ≤ s.params.maxPayload) : dataRefusal c len s = none := by
  simp [dataRefusal, checkClass, data, tooLong, Nat.not_lt.2 fits]

theorem declRefusal_addresses {decls : List Decl} {s : State}
    (bad : (∃ d ∈ decls, d.addr = 0 ∨ d.addr = 31) ∨ ¬(decls.map Decl.addr).Nodup) :
    ∃ e, declRefusal decls s = some (.operandOutOfRange e) := by
  unfold declRefusal
  cases checked : checkDecls decls with
  | some e => exact ⟨e, rfl⟩
  | none =>
    obtain ⟨usable, nodup⟩ := checkDecls_eq_none.1 checked
    obtain ⟨d, member, reserved⟩ | repeated := bad
    · obtain ⟨notZero, notLast⟩ := usable d member
      exact absurd reserved (by simp only [not_or]; exact ⟨notZero, notLast⟩)
    · exact absurd nodup repeated

theorem declRefusal_long {decls : List Decl} {s : State} (usable : ∀ d ∈ decls, d.addr ≠ 0 ∧ d.addr ≠ 31)
    (nodup : (decls.map Decl.addr).Nodup)
    (long : ∃ d ∈ decls, ∃ slot ∈ d.slots.toList, s.params.maxPayload < slot.len.toNat) :
    declRefusal decls s = some .payloadTooLong := by
  have unfit : ¬decls.all (declFits s.params) = true := by
    simp only [declFits, List.all_eq_true, decide_eq_true_eq]
    intro fit
    obtain ⟨d, member, slot, inSlots, tooLong⟩ := long
    exact Nat.not_lt.2 (fit d member slot inSlots) tooLong
  simp only [declRefusal, checkDecls_eq_none.2 ⟨usable, nodup⟩, if_neg unfit]

theorem mirrorRefusal_entries {defs : List MirrorDef} {s : State}
    (bad : ∃ d ∈ defs, d.slot = Config.cmdClass ∨ ¬d.phase < d.period) :
    ∃ e, mirrorRefusal defs s = some (.operandOutOfRange e) := by
  unfold mirrorRefusal
  cases checked : checkMirrorDefs defs with
  | some e => exact ⟨e, rfl⟩
  | none =>
    obtain ⟨d, member, wrong⟩ := bad
    obtain ⟨slot, phase⟩ := checkMirrorDefs_eq_none.1 checked d member
    exact absurd wrong (by simp [slot, phase])

theorem mirrorable_iff (m : Master) (a : Addr) (c : MsgClass) (size : Byte) :
    m.mirrorable a c size = true ↔ ((m.decl a).valid = true ∧ (m.slotOf a c).used = true) ∧ c ≠ Config.cmdClass ∧
      (m.slotOf a c).len ≤ size := by
  simp [Master.mirrorable, Master.declares, and_assoc]

theorem mirrorRefusal_undeclared {defs : List MirrorDef} {s : State}
    (formed : ∀ d ∈ defs, d.slot ≠ Config.cmdClass ∧ d.phase < d.period)
    (bad : ∃ d ∈ defs, s.master.mirrorable d.addr d.slot d.size = false) :
    mirrorRefusal defs s = some .mirrorNotDeclared := by
  have missing : ¬(defs.all fun d => s.master.mirrorable d.addr d.slot d.size) = true := by
    rw [List.all_eq_true]
    intro all
    obtain ⟨d, member, notMirrorable⟩ := bad
    simp [all d member] at notMirrorable
  simp only [mirrorRefusal, checkMirrorDefs_eq_none.2 formed, if_neg missing]

/-- What R187 asks of each entry. -/
abbrev Master.Installs (m : Master) (d : MirrorDef) : Prop :=
  d.slot ≠ Config.cmdClass ∧ d.phase < d.period ∧ (m.decl d.addr).valid = true ∧
    (m.slotOf d.addr d.slot).used = true ∧ (m.slotOf d.addr d.slot).len ≤ d.size

theorem mirrorRefusal_size {defs : List MirrorDef} {s : State} (good : ∀ d ∈ defs, s.master.Installs d) :
    mirrorRefusal defs s =
      match s.params.mirrorMax with
      | some k => if k < defs.length then some .mirrorTableFull else none
      | none => none := by
  have formed : ∀ d ∈ defs, d.slot ≠ Config.cmdClass ∧ d.phase < d.period := fun d member => by
    obtain ⟨slot, phase, -⟩ := good d member
    exact ⟨slot, phase⟩
  have all : (defs.all fun d => s.master.mirrorable d.addr d.slot d.size) = true := by
    rw [List.all_eq_true]
    intro d member
    obtain ⟨slot, -, valid, used, room⟩ := good d member
    exact (mirrorable_iff _ _ _ _).2 ⟨⟨valid, used⟩, slot, room⟩
  simp only [mirrorRefusal, checkMirrorDefs_eq_none.2 formed, if_pos all] <;> rfl

theorem staleRefusal_none {s : State} (declared : ∀ e ∈ s.master.mirror, s.master.declares e.addr e.slot = true) :
    staleRefusal s = none := if_pos (List.all_eq_true.2 declared)

theorem staleRefusal_some {s : State}
    (stale : ∃ e ∈ s.master.mirror, (s.master.decl e.addr).valid = false ∨ (s.master.slotOf e.addr e.slot).used = false) :
    staleRefusal s = some .staleMirrorEntry := by
  refine if_neg ?_
  rw [List.all_eq_true]
  intro declared
  obtain ⟨e, member, gone⟩ := stale
  have := declared e member
  simp only [Master.declares, Bool.and_eq_true] at this
  obtain ⟨valid, used⟩ := this
  simp [valid, used] at gone

/-- Settles O37, refusal by refusal. -/
theorem refusalsAreByName : Obligations.RefusalsAreByName := by
  refine ⟨fun s ready => ⟨?sendClass, ?receiveClass, ?sendLong, ?receiveLong, ?declAddress, ?declLong, ?mirrorForm,
    ?mirrorUndeclared, ?mirrorFull, ?stale⟩, ?busy⟩
  case sendClass => exact fun a payload => masterOp_refused (sendBody a 7 payload) ready (dataRefusal_class payload.length s)
  case receiveClass => exact fun a len buf => masterOp_refused (receiveBody a 7 len buf) ready (dataRefusal_class len.toNat s)
  case sendLong =>
    exact fun a c payload data long => masterOp_refused (sendBody a c payload) ready (dataRefusal_long data long)
  case receiveLong =>
    exact fun a c len buf data long => masterOp_refused (receiveBody a c len buf) ready (dataRefusal_long data long)
  case declAddress =>
    intro decls bad
    obtain ⟨e, refused⟩ := declRefusal_addresses (s := s) bad
    exact ⟨e, masterOp_refused (defineDevicesBody decls) ready refused⟩
  case declLong =>
    exact fun decls usable nodup long =>
      masterOp_refused (defineDevicesBody decls) ready (declRefusal_long usable nodup long)
  case mirrorForm =>
    intro defs bad
    obtain ⟨e, refused⟩ := mirrorRefusal_entries (s := s) bad
    exact ⟨e, masterOp_refused (defineMirroringBody defs) ready refused⟩
  case mirrorUndeclared =>
    intro defs formed ⟨d, member, missing⟩
    refine masterOp_refused (defineMirroringBody defs) ready (mirrorRefusal_undeclared formed ⟨d, member, ?_⟩)
    rw [← Bool.not_eq_true, mirrorable_iff]
    rintro ⟨⟨valid, used⟩, -, room⟩
    obtain invalid | unused | small := missing
    · simp [valid] at invalid
    · simp [used] at unused
    · exact absurd room (BitVec.not_le.2 small)
  case mirrorFull =>
    intro defs k good cap long
    refine masterOp_refused (defineMirroringBody defs) ready ?_
    rw [mirrorRefusal_size good, cap]
    exact if_pos long
  case stale => exact fun stale => masterOp_refused mirrorTickBody ready (staleRefusal_some stale)
  case busy =>
    intro s i on busy isOp
    cases i with
    | sendMessage a c payload => exact masterOp_busy _ (sendBody a c payload) on busy
    | receiveMessage a c len buf => exact masterOp_busy _ (receiveBody a c len buf) on busy
    | sendCmdMessage a request out => exact masterOp_busy none (commandBody a request out) on busy
    | defineDevices decls => exact masterOp_busy _ (defineDevicesBody decls) on busy
    | defineMirroring defs => exact masterOp_busy _ (defineMirroringBody defs) on busy
    | mirrorTick => exact masterOp_busy _ mirrorTickBody on busy
    | renumId old new => exact masterOp_busy none (renumBody old new) on busy
    | checkConfig => exact masterOp_busy none checkConfigBody on busy
    | autoConfig => simp [exec, execAutoConfig, on, busy]
    | init mutex => simp [exec, execInit, busy]
    | _ => simp [isPublicOp] at isOp

/-! ## Completing -/

/-- A ready master completes an operation nothing speaks against. -/
theorem masterOp_returns {bad : Option Refusal} (body : State → ResultCode × State) {s : State} (ready : s.Ready)
    (accepted : bad = none) : masterOp bad body s = .next (returned body s) := masterOp_ready body ready accepted

theorem exec_send {a : Addr} {c : MsgClass} {payload : List Byte} {s : State} (ready : s.Ready)
    (data : c ≠ Config.cmdClass) (fits : payload.length ≤ s.params.maxPayload) :
    exec (.sendMessage a c payload) s = .next (returned (sendBody a c payload) s) :=
  masterOp_returns (sendBody a c payload) ready (dataRefusal_none data fits)

theorem exec_receive {a : Addr} {c : MsgClass} {len : Byte} {buf : BufRef} {s : State} (ready : s.Ready)
    (data : c ≠ Config.cmdClass) (fits : len.toNat ≤ s.params.maxPayload) :
    exec (.receiveMessage a c len buf) s = .next (returned (receiveBody a c len buf) s) :=
  masterOp_returns (receiveBody a c len buf) ready (dataRefusal_none data fits)

theorem exec_command (a : Addr) (request : Vector Byte 5) (out : BufRef) {s : State} (ready : s.Ready) :
    exec (.sendCmdMessage a request out) s = .next (returned (commandBody a request out) s) :=
  masterOp_returns (bad := none) (commandBody a request out) ready rfl

theorem exec_renum (old new : Addr) {s : State} (ready : s.Ready) :
    exec (.renumId old new) s = .next (returned (renumBody old new) s) :=
  masterOp_returns (bad := none) (renumBody old new) ready rfl

theorem exec_check {s : State} (ready : s.Ready) : exec .checkConfig s = .next (returned checkConfigBody s) :=
  masterOp_returns (bad := none) checkConfigBody ready rfl

theorem exec_tick {s : State} (ready : s.Ready)
    (declared : ∀ e ∈ s.master.mirror, s.master.declares e.addr e.slot = true) :
    exec .mirrorTick s = .next (returned mirrorTickBody s) :=
  masterOp_returns mirrorTickBody ready (staleRefusal_none declared)

/-- An operation that only exchanges frames leaves everything else alone. -/
theorem returned_exchanges {body : State → ResultCode × State} {s : State}
    (h : ExchangeMove (lockMutex s) (body (lockMutex s)).2) : ExchangesOnly s (returned body s) := by
  obtain ⟨op, failed⟩ := returned_exact (R := fun _ => False) h.stores
  obtain ⟨tx, rx, n, r, master⟩ := op.registers_exact failed
  exact ⟨op.params, h.mem, op.inputs, op.codecOut, by rw [master]⟩

/-- An operation that also stores to a buffer leaves everything else alone. -/
theorem returned_stores {body : State → ResultCode × State} {s : State} {buf : BufRef} {n : Nat}
    (wf : Memory.wf s.mem = true) (op : OpMove (InBuf buf n) s (returned body s))
    (failed : (returned body s).master.failedAddress = s.master.failedAddress) :
    ExchangesAndStores buf.toNat n s (returned body s) := by
  obtain ⟨tx, rx, k, r, master⟩ := op.registers_exact failed
  refine ⟨op.params, op.inputs, op.codecOut, fun x outside => op.read wf x fun ⟨low, high⟩ => ?_, by rw [master]⟩
  omega

/-! ## The codes in the order of the tests (42 R182 to R185) -/

theorem countVerdict_eq (n w e : Nat) : countVerdict n w e =
    if n = w + 1 then some .noResponse else if n < e then some .timeout else none := rfl

/-- The verdict of SEND_MESSAGE on what was read, at most as much as was asked for. -/
theorem sendVerdict_eq (p : Params) (a : Addr) (c : MsgClass) (payload : List Byte) {rx : List Byte} {e : Nat}
    (bounded : rx.length ≤ e) :
    sendVerdict p (buildWriteFrame p a c payload) rx e =
      if rx.length = (buildWriteFrame p a c payload).length + 1 then .noResponse
      else if rx.length < e then .timeout
      else if (rx.drop (hdrWin p)).take (payload.length + 1) ≠ payload ++ [payloadCrc p payload] then .crcError
      else if rx.getLast? ≠ some 0x55 then .notAcknowledged
      else .ok := by
  have window : (buildWriteFrame p a c payload).drop 2 = payload ++ [payloadCrc p payload] := by
    simp [buildWriteFrame, headerBytes]
  have count : (buildWriteFrame p a c payload).length - 2 = payload.length + 1 := by
    simp [buildWriteFrame, headerBytes]
  unfold sendVerdict
  rw [countVerdict_eq, window, count]
  by_cases silent : rx.length = (buildWriteFrame p a c payload).length + 1
  · simp only [if_pos silent]
  · simp only [if_neg silent]
    by_cases short : rx.length < e
    · simp only [if_pos short]
    · have last : rx.getLast? = rx[e - 1]? := by
        rw [List.getLast?_eq_getElem?, show rx.length = e by omega]
      simp only [if_neg short, last]
      rfl

/-- The verdict on a reply. -/
theorem replyVerdict_eq (p : Params) {w start e : Nat} {rx : List Byte} (bounded : rx.length ≤ e) :
    replyVerdict p w start e rx =
      if rx.length = w + 1 then .noResponse
      else if rx.length < e then .timeout
      else if payloadOk p (rx.drop start) = false then .crcError
      else .ok := by
  have window : replyWindow start e rx = rx.drop start := by
    rw [replyWindow, List.take_of_length_le bounded]
  unfold replyVerdict
  rw [countVerdict_eq, window]
  by_cases silent : rx.length = w + 1
  · simp only [if_pos silent]
  · simp only [if_neg silent]
    by_cases short : rx.length < e
    · simp only [if_pos short]
    · cases good : payloadOk p (rx.drop start) <;> simp [short]

/-- A reply found OK has its whole count. -/
theorem replyVerdict_ok_length {p : Params} {w start e : Nat} {rx : List Byte} (bounded : rx.length ≤ e)
    (ok : replyVerdict p w start e rx = .ok) : rx.length = e := by
  rw [replyVerdict_eq p bounded] at ok
  split at ok
  · cases ok
  · split at ok
    · cases ok
    · omega

/-- What an exchange keeps. -/
theorem exchange_kept (f : List Byte) (e : Nat) (s : State) :
    (exchange f e s).master.txbuf = f ∧ (exchange f e s).master.rxbuf = (exchange f e s).bus.stream.take e ∧
    (exchange f e s).master.n = (exchange f e s).master.rxbuf.length :=
  ⟨rfl, rfl, rfl⟩

theorem returned_master {body : State → ResultCode × State} {s : State}
    {R : Nat → Prop} (h : StoreMove R (lockMutex s) (body (lockMutex s)).2) :
    (returned body s).master = { s.master with
      txbuf := (body (lockMutex s)).2.master.txbuf, rxbuf := (body (lockMutex s)).2.master.rxbuf
      n := (body (lockMutex s)).2.master.n, result := some (body (lockMutex s)).1 } := by
  simp only [returned, report_master, unlocked_master h]

theorem returned_bus (body : State → ResultCode × State) (s : State) :
    (returned body s).bus = (body (lockMutex s)).2.bus := rfl

theorem returned_mem (body : State → ResultCode × State) (s : State) :
    (returned body s).mem = (body (lockMutex s)).2.mem := rfl

theorem sendBody_eq (a : Addr) (c : MsgClass) (payload : List Byte) (s : State) :
    sendBody a c payload s =
      (sendVerdict s.params (buildWriteFrame s.params a c payload)
        (exchange (buildWriteFrame s.params a c payload) (sendCount s.params payload.length) s).master.rxbuf
        (sendCount s.params payload.length),
       exchange (buildWriteFrame s.params a c payload) (sendCount s.params payload.length) s) := rfl

/-- Settles O38: the verdict is read off the bytes of the exchange. -/
theorem sendMessageReturnsItsVerdict : Obligations.SendMessageReturnsItsVerdict := by
  rintro s a c payload f e ready data fits rfl rfl
  have move := sendBody_move a c payload (lockMutex s)
  have master := returned_master (R := fun _ => False) move.stores
  obtain ⟨tx, rx, n⟩ := exchange_kept (buildWriteFrame s.params a c payload) (sendCount s.params payload.length)
    (lockMutex s)
  have bounded : (exchange (buildWriteFrame s.params a c payload) (sendCount s.params payload.length)
      (lockMutex s)).master.rxbuf.length ≤ sendCount s.params payload.length := by
    rw [rx]; exact List.length_take_le _ _
  refine ⟨_, _, exec_send ready data fits, returned_exchanges move, ?_, rfl, ?_, ?_, ?_⟩
  all_goals rw [master, sendBody_eq]
  · exact tx
  · exact n
  · exact rx
  · exact congrArg some (sendVerdict_eq s.params a c payload bounded)

/-! ## Reading back a stored buffer -/

theorem load_getElem? : ∀ (n a : Nat) (m : Memory) (i : Nat), i < n → (Memory.load a n m)[i]? = some (Memory.read m (a + i))
  | 0, _, _, _, h => absurd h (Nat.not_lt_zero _)
  | n + 1, a, m, 0, _ => rfl
  | n + 1, a, m, i + 1, h => by
    rw [Memory.load, List.getElem?_cons_succ, load_getElem? n (a + 1) m i (by omega), show a + 1 + i = a + (i + 1) by omega]

/-- What was stored is what is loaded. -/
theorem load_store (a : Nat) {vs : List Byte} {m : Memory} (wf : Memory.wf m = true) :
    Memory.load a vs.length (Memory.store a vs m) = vs := by
  apply List.ext_getElem?
  intro i
  by_cases inside : i < vs.length
  · rw [load_getElem? _ _ _ _ inside, read_store vs a m wf, if_pos (by omega), Nat.add_sub_cancel_left]
    simp [inside]
  · rw [List.getElem?_eq_none (by rw [load_length]; omega), List.getElem?_eq_none (by omega)]

theorem receiveBody_exchange (a : Addr) (c : MsgClass) (len : Byte) (buf : BufRef) (s : State) :
    let t := exchange (buildReadRequest s.params a c) (receiveCount s.params len.toNat) s
    (receiveBody a c len buf s).1 =
      replyVerdict s.params 2 (hdrWin s.params) (receiveCount s.params len.toNat) t.master.rxbuf ∧
    (receiveBody a c len buf s).2.master = t.master ∧ (receiveBody a c len buf s).2.bus = t.bus ∧
    ((receiveBody a c len buf s).1 = .ok → (receiveBody a c len buf s).2.mem =
      Memory.store buf.toNat
        ((replyWindow (hdrWin s.params) (receiveCount s.params len.toNat) t.master.rxbuf).take len.toNat) s.mem) := by
  have move := exchange_move (buildReadRequest s.params a c) (receiveCount s.params len.toNat) s
  simp only [receiveBody]
  refine ⟨rfl, ?_, ?_, fun ok => ?_⟩
  · split <;> rfl
  · split <;> rfl
  · rw [if_pos ok, storeBuf_mem, move.mem]

/-- Settles O39: the verdict is read off the bytes of the exchange, and the buffer is stored after it. -/
theorem receiveMessageReturnsItsVerdict : Obligations.ReceiveMessageReturnsItsVerdict := by
  rintro s a c len buf e ready wf data fits rfl
  obtain ⟨op, failed⟩ := returned_receive a c len buf s
  have master := returned_master (receiveBody_move a c len buf (lockMutex s))
  obtain ⟨code, regs, bus, stored⟩ := receiveBody_exchange a c len buf (lockMutex s)
  obtain ⟨tx, rx, n⟩ := exchange_kept (buildReadRequest s.params a c) (receiveCount s.params len.toNat) (lockMutex s)
  have bounded : (exchange (buildReadRequest s.params a c) (receiveCount s.params len.toNat)
      (lockMutex s)).master.rxbuf.length ≤ receiveCount s.params len.toNat := by
    rw [rx]; exact List.length_take_le _ _
  have params : (lockMutex s).params = s.params := rfl
  simp only [params] at code regs bus stored
  refine ⟨_, _, exec_receive ready data fits, returned_stores wf op failed, ?_, rfl, ?_, ?_, ?_, fun ok => ?_⟩
  · rw [master, regs]; exact tx
  · rw [master, regs]; exact n
  · rw [master, regs, returned_bus, bus]; exact rx
  · rw [master, regs, code, replyVerdict_eq s.params bounded]; rfl
  · rw [master] at ok ⊢
    have good : (receiveBody a c len buf (lockMutex s)).1 = .ok := Option.some.inj ok
    have whole := replyVerdict_ok_length bounded (code ▸ good)
    rw [returned_mem, stored good, replyWindow, List.take_of_length_le bounded, regs]
    generalize (exchange (buildReadRequest s.params a c) (receiveCount s.params len.toNat)
      (lockMutex s)).master.rxbuf = rx at whole
    have count : ((rx.drop (hdrWin s.params)).take len.toNat).length = len.toNat := by
      simp only [List.length_take, List.length_drop, whole, receiveCount]
      omega
    have back := load_store buf.toNat (vs := (rx.drop (hdrWin s.params)).take len.toNat) wf
    rwa [count] at back

theorem fiveOf_toList {bs : List Byte} (long : 5 ≤ bs.length) : (fiveOf bs).toList = bs.take 5 := by
  match bs, long with
  | a :: b :: c :: d :: e :: rest, _ => rfl

theorem commandBody_exchange (a : Addr) (request : Vector Byte 5) (out : BufRef) (s : State) :
    let t := exchange (buildCmdFrame s.params a request) (commandCount s.params) s
    (commandBody a request out s).1 =
      replyVerdict s.params 8 (hdrWin s.params + 6) (commandCount s.params) t.master.rxbuf ∧
    (commandBody a request out s).2.master = t.master ∧ (commandBody a request out s).2.bus = t.bus ∧
    ((commandBody a request out s).1 = .ok → (commandBody a request out s).2.mem =
      Memory.store out.toNat
        (fiveOf (replyWindow (hdrWin s.params + 6) (commandCount s.params) t.master.rxbuf)).toList s.mem) := by
  have move := exchange_move (buildCmdFrame s.params a request) (commandCount s.params) s
  have width : (buildCmdFrame s.params a request).length = 8 := by simp [buildCmdFrame, headerBytes]
  simp only [commandBody, command, width]
  refine ⟨trivial, ?_, ?_, fun ok => ?_⟩
  · split <;> rfl
  · split <;> rfl
  · rw [if_pos ok, storeBuf_mem, move.mem]

/-- Settles O40: the verdict is read off the bytes of the exchange, and the response is stored after it. -/
theorem sendCommandReturnsItsVerdict : Obligations.SendCommandReturnsItsVerdict := by
  rintro s a request out e ready wf rfl
  obtain ⟨op, failed⟩ := returned_command a request out s
  have master := returned_master (commandBody_move a request out (lockMutex s))
  obtain ⟨code, regs, bus, stored⟩ := commandBody_exchange a request out (lockMutex s)
  obtain ⟨tx, rx, n⟩ := exchange_kept (buildCmdFrame s.params a request) (commandCount s.params) (lockMutex s)
  have bounded : (exchange (buildCmdFrame s.params a request) (commandCount s.params)
      (lockMutex s)).master.rxbuf.length ≤ commandCount s.params := by
    rw [rx]; exact List.length_take_le _ _
  have params : (lockMutex s).params = s.params := rfl
  simp only [params] at code regs bus stored
  refine ⟨_, _, exec_command a request out ready, returned_stores wf op failed, ?_, rfl, ?_, ?_, ?_, fun ok => ?_⟩
  · rw [master, regs]; exact tx
  · rw [master, regs]; exact n
  · rw [master, regs, returned_bus, bus]; exact rx
  · rw [master, regs, code, replyVerdict_eq s.params bounded]; rfl
  · rw [master] at ok ⊢
    have good : (commandBody a request out (lockMutex s)).1 = .ok := Option.some.inj ok
    have whole := replyVerdict_ok_length bounded (code ▸ good)
    rw [returned_mem, stored good, replyWindow, List.take_of_length_le bounded, regs]
    generalize (exchange (buildCmdFrame s.params a request) (commandCount s.params)
      (lockMutex s)).master.rxbuf = rx at whole
    have long : 5 ≤ (rx.drop (hdrWin s.params + 6)).length := by
      simp only [List.length_drop, whole, commandCount]
      omega
    have back := load_store out.toNat (vs := (fiveOf (rx.drop (hdrWin s.params + 6))).toList) wf
    rw [Vector.length_toList] at back
    rw [← fiveOf_toList long]
    exact back

/-! ## The tables (42 R186, R187) -/

theorem exec_devices {decls : List Decl} {s : State} (ready : s.Ready) (accepted : declRefusal decls s = none) :
    exec (.defineDevices decls) s = .next (returned (defineDevicesBody decls) s) :=
  masterOp_returns (defineDevicesBody decls) ready accepted

/-- Settles O41: the declarations are entered one after another into a cleared directory. -/
theorem defineDevicesReplacesTheDirectory : Obligations.DefineDevicesReplacesTheDirectory := by
  intro s decls ready usable nodup fit
  have entries := declareAll_decl decls s.master.clearDir
  refine ⟨_, exec_devices ready (declRefusal_eq_none.2 ⟨⟨usable, nodup⟩, fit⟩), ?_, fun d member => ?_, fun a notNamed => ?_⟩
  all_goals rw [returned_devices]
  · rw [updMaster_master, declareAll_eq, State.updMaster, declareAll_eq]
    rfl
  · obtain ⟨e, memberE, same, entry⟩ | ⟨notNamed, -⟩ := entries d.addr
    · obtain rfl := List.inj_on_of_nodup_map nodup memberE member same
      exact entry
    · exact absurd rfl (notNamed d member)
  · obtain ⟨d, member, same, -⟩ | ⟨-, entry⟩ := entries a
    · exact absurd same (notNamed d member)
    · exact entry.trans (clearDir_decl s.master a)

/-- Settles O42: the list passes every refusal and is installed. -/
theorem defineMirroringInstallsTheTable : Obligations.DefineMirroringInstallsTheTable := by
  intro s defs ready good cap
  have accepted : mirrorRefusal defs s = none := by
    rw [mirrorRefusal_size fun d member => ?_]
    · cases bound : s.params.mirrorMax with
      | none => rfl
      | some k => exact if_neg (Nat.not_lt.2 (cap k bound))
    · obtain ⟨valid, slot, used, -, phase, room⟩ := good d member
      exact ⟨slot, phase, valid, used, room⟩
  have runs : exec (.defineMirroring defs) s = .next (returned (defineMirroringBody defs) s) :=
    masterOp_returns (defineMirroringBody defs) ready accepted
  rw [runs, returned_mirroring]
  rfl

end Sys2Proof.Machine
end

section
/-! SUPPORT. The mirror scheduler (42 R188), RENUM_ID and CHECK_CONFIG (R189, R190). -/

namespace Sys2Proof.Machine

/-! ## What a mirror tick reports -/

/-- What a transfer can fail with (42 R185, 60 R350). -/
def transferFailures : List ResultCode := [.noResponse, .timeout, .crcError, .notAcknowledged]

theorem sendVerdict_codes (p : Params) (f rx : List Byte) (e : Nat) :
    sendVerdict p f rx e ≠ .ok → sendVerdict p f rx e ∈ transferFailures := by
  unfold sendVerdict
  intro failed
  split
  · rename_i r counted
    obtain rfl | rfl := countVerdict_codes counted <;> decide
  · split
    · decide
    · split
      · decide
      · simp_all

theorem commandCodes_failure {r : ResultCode} (code : r ∈ commandCodes) (failed : r ≠ .ok) : r ∈ transferFailures := by
  revert r; decide

theorem sendBody_codes (a : Addr) (c : MsgClass) (payload : List Byte) (s : State)
    (failed : (sendBody a c payload s).1 ≠ .ok) : (sendBody a c payload s).1 ∈ transferFailures := by
  rw [sendBody] at failed ⊢
  exact sendVerdict_codes _ _ _ _ failed

theorem receiveBody_codes (a : Addr) (c : MsgClass) (len : Byte) (buf : BufRef) (s : State)
    (failed : (receiveBody a c len buf s).1 ≠ .ok) : (receiveBody a c len buf s).1 ∈ transferFailures := by
  rw [receiveBody] at failed ⊢
  exact commandCodes_failure (replyVerdict_codes _ _ _ _ _) failed

theorem mirrorTransfer_m2s {e : MirrorEntry} {s : State} (dir : (s.master.slotOf e.addr e.slot).dir = .m2s) :
    mirrorTransfer e s =
      sendBody e.addr e.slot (Memory.load e.buf.toNat (s.master.slotOf e.addr e.slot).len.toNat s.mem) s := by
  simp only [mirrorTransfer, dir]

theorem mirrorTransfer_s2m {e : MirrorEntry} {s : State} (dir : (s.master.slotOf e.addr e.slot).dir = .s2m) :
    mirrorTransfer e s = receiveBody e.addr e.slot (s.master.slotOf e.addr e.slot).len e.buf s := by
  simp only [mirrorTransfer, dir]

theorem mirrorTransfer_codes (e : MirrorEntry) (s : State) (failed : (mirrorTransfer e s).1 ≠ .ok) :
    (mirrorTransfer e s).1 ∈ transferFailures := by
  cases dir : (s.master.slotOf e.addr e.slot).dir with
  | m2s => rw [mirrorTransfer_m2s dir] at failed ⊢; exact sendBody_codes _ _ _ _ failed
  | s2m => rw [mirrorTransfer_s2m dir] at failed ⊢; exact receiveBody_codes _ _ _ _ _ failed

theorem mirrorTransfer_failed (e : MirrorEntry) (s : State) :
    (mirrorTransfer e s).2.master.failedAddress = s.master.failedAddress :=
  (mirrorTransfer_move e s).registers.2.2.2.2.2.2.1

/-- A failure already noted stays. -/
theorem mirrorPass_noted : ∀ (es : List MirrorEntry) {first : ResultCode} (s : State), first ≠ .ok →
    (mirrorPass es first s).1 = first ∧ (mirrorPass es first s).2.master.failedAddress = s.master.failedAddress
  | [], _, _, _ => ⟨rfl, rfl⟩
  | e :: es, first, s, failed => by
    by_cases firing : fires e = true
    · have kept : noteFailure first e.addr (mirrorTransfer e s) = (first, (mirrorTransfer e s).2) :=
        if_neg fun both => failed both.1
      simp only [mirrorPass, if_pos firing, kept]
      obtain ⟨code, address⟩ := mirrorPass_noted es (mirrorTransfer e s).2 failed
      exact ⟨code, address.trans (mirrorTransfer_failed e s)⟩
    · simp only [mirrorPass, if_neg firing]
      exact mirrorPass_noted es s failed

/-- From no failure: none, and the address stays; or a transport code with the address of an entry that fired. -/
theorem mirrorPass_report : ∀ (es : List MirrorEntry) (s : State),
    ((mirrorPass es .ok s).1 = .ok ∧ (mirrorPass es .ok s).2.master.failedAddress = s.master.failedAddress) ∨
    ((mirrorPass es .ok s).1 ≠ .ok ∧ (mirrorPass es .ok s).1 ∈ transferFailures ∧
      ∃ e ∈ es, fires e = true ∧ (mirrorPass es .ok s).2.master.failedAddress = e.addr)
  | [], _ => .inl ⟨rfl, rfl⟩
  | e :: es, s => by
    have later : ∀ q : State, q.master.failedAddress = s.master.failedAddress →
        mirrorPass (e :: es) .ok s = mirrorPass es .ok q →
        ((mirrorPass (e :: es) .ok s).1 = .ok ∧
          (mirrorPass (e :: es) .ok s).2.master.failedAddress = s.master.failedAddress) ∨
        ((mirrorPass (e :: es) .ok s).1 ≠ .ok ∧ (mirrorPass (e :: es) .ok s).1 ∈ transferFailures ∧
          ∃ d ∈ e :: es, fires d = true ∧ (mirrorPass (e :: es) .ok s).2.master.failedAddress = d.addr) := by
      intro q same goesOn
      rw [goesOn]
      obtain ⟨ok, address⟩ | ⟨failed, code, d, member, fired, address⟩ := mirrorPass_report es q
      · exact .inl ⟨ok, address.trans same⟩
      · exact .inr ⟨failed, code, d, List.mem_cons_of_mem e member, fired, address⟩
    by_cases firing : fires e = true
    · by_cases ok : (mirrorTransfer e s).1 = .ok
      · have kept : noteFailure .ok e.addr (mirrorTransfer e s) = (.ok, (mirrorTransfer e s).2) :=
          if_neg fun both => both.2 ok
        exact later _ (mirrorTransfer_failed e s) (by simp only [mirrorPass, if_pos firing, kept])
      · have noted : noteFailure .ok e.addr (mirrorTransfer e s) =
            ((mirrorTransfer e s).1, setFailed e.addr (mirrorTransfer e s).2) := if_pos ⟨rfl, ok⟩
        have goesOn : mirrorPass (e :: es) .ok s =
            mirrorPass es (mirrorTransfer e s).1 (setFailed e.addr (mirrorTransfer e s).2) := by
          simp only [mirrorPass, if_pos firing, noted]
        obtain ⟨code, address⟩ := mirrorPass_noted es (setFailed e.addr (mirrorTransfer e s).2) ok
        rw [goesOn, code]
        exact .inr ⟨ok, mirrorTransfer_codes e s ok, e, List.mem_cons_self, firing, address⟩
    · exact later s rfl (by simp only [mirrorPass, if_neg firing])

/-- Where no entry fires nothing is sent. -/
theorem mirrorPass_still : ∀ (es : List MirrorEntry) (first : ResultCode) (s : State),
    (∀ e ∈ es, fires e = false) → mirrorPass es first s = (first, s)
  | [], _, _, _ => rfl
  | e :: es, first, s, still => by
    have here : ¬fires e = true := by simp [still e List.mem_cons_self]
    rw [mirrorPass, if_neg here]
    exact mirrorPass_still es first s fun d member => still d (List.mem_cons_of_mem e member)

theorem returned_tick_eq (s : State) :
    returned mirrorTickBody s =
      report (mirrorPass s.master.mirror .ok (lockMutex s.ticked)).1
        (unlockMutex (mirrorPass s.master.mirror .ok (lockMutex s.ticked)).2) := by
  rw [returned, mirrorTickBody_eq, lockMutex_mirror, lockMutex_ticked]

theorem unlockMutex_failedAddress (s : State) : (unlockMutex s).master.failedAddress = s.master.failedAddress := by
  rw [unlockMutex_eq]

theorem lockMutex_failedAddress (s : State) : (lockMutex s).master.failedAddress = s.master.failedAddress := by
  rw [lockMutex_eq]

/-- Releasing the mutex that was just taken leaves the state as it was. -/
theorem unlock_lock (s : State) : unlockMutex (lockMutex s) = s := by
  cases held : s.master.hasMutex with
  | false => rw [lockMutex_of_none held, unlockMutex_of_none held]
  | true =>
    have taken : (lockMutex s).master.hasMutex = true := by rw [lockMutex_eq]; exact held
    rw [unlockMutex_of_some taken, lockMutex_of_some held]
    rfl

theorem fires_iff (e : MirrorEntry) : fires e = true ↔ e.ticker = e.phase := decide_eq_true_iff

/-- Settles O43: the tickers move first, and the transfers touch none of them. -/
theorem mirrorTickMovesEveryTicker : Obligations.MirrorTickMovesEveryTicker := by
  intro s ready wf declared
  have op := returned_tick s
  have shape := returned_tick_eq s
  have report := mirrorPass_report s.master.mirror (lockMutex s.ticked)
  have same : (lockMutex s.ticked).master.failedAddress = s.master.failedAddress := lockMutex_failedAddress _
  obtain ⟨tx, rx, n, r, failed, master⟩ := op.registers
  refine ⟨_, exec_tick ready declared, op.params, op.inputs, op.codecOut, ?_, fun ok => ?_, fun bad => ?_, fun still => ?_,
    fun x outside => ?_⟩
  · rw [master]; rfl
  · rw [shape] at ok ⊢
    simp only [report_master, unlockMutex_failedAddress, Option.some.injEq] at ok ⊢
    obtain ⟨-, address⟩ | ⟨failed, -⟩ := report
    · exact address.trans same
    · exact absurd ok failed
  · rw [shape] at bad ⊢
    simp only [report_master, unlockMutex_failedAddress, ne_eq, Option.some.injEq] at bad ⊢
    obtain ⟨ok, -⟩ | ⟨-, code, e, member, fired, address⟩ := report
    · exact absurd ok bad
    · refine ⟨?_, e, member, (fires_iff e).1 fired, address⟩
      simpa [transferFailures] using code
  · have quiet : ∀ e ∈ s.master.mirror, fires e = false := fun e member => by
      rw [← Bool.not_eq_true, fires_iff]; exact still e member
    rw [shape, mirrorPass_still _ _ _ quiet, unlock_lock]
    exact ⟨rfl, rfl, rfl, rfl, rfl⟩
  · refine op.read wf x fun ⟨e, member, fired, dir, inside⟩ => ?_
    have := outside e member ((fires_iff e).1 fired) dir
    obtain ⟨low, high⟩ := inside
    omega

/-! ## The law of the scheduler -/

/-- The mirror table in which every ticker is the number of calls modulo its period. -/
def mirrorAfter (k : Nat) (es : List MirrorEntry) : List MirrorEntry :=
  es.map fun e => { e with ticker := BitVec.ofNat 16 (k % e.period.toNat) }

/-- One more call moves a ticker on. -/
theorem advanceEntry_count {period : Word16} (positive : 0 < period.toNat) (k : Nat) :
    (BitVec.ofNat 16 (k % period.toNat) + 1) % period = BitVec.ofNat 16 ((k + 1) % period.toNat) := by
  have bound := period.isLt
  have low := Nat.mod_lt k positive
  have low' := Nat.mod_lt (k + 1) positive
  apply BitVec.eq_of_toNat_eq
  rw [BitVec.toNat_umod, BitVec.toNat_add, BitVec.toNat_ofNat, BitVec.toNat_ofNat, Nat.mod_eq_of_lt (a := k % period.toNat) (by omega),
    Nat.mod_eq_of_lt (a := (k + 1) % period.toNat) (by omega)]
  have one : (1 : Word16).toNat = 1 := rfl
  rw [one, Nat.mod_eq_of_lt (a := k % period.toNat + 1) (by omega), Nat.mod_add_mod]

theorem mirrorAfter_succ (k : Nat) {es : List MirrorEntry} (positive : ∀ e ∈ es, 0 < e.period.toNat) :
    (mirrorAfter k es).map advanceEntry = mirrorAfter (k + 1) es := by
  rw [mirrorAfter, mirrorAfter, List.map_map]
  refine List.map_congr_left fun e member => ?_
  simp only [Function.comp_apply, advanceEntry, advanceEntry_count (positive e member)]

/-- Every entry of the table is still declared after the tickers have moved. -/
theorem declared_of_dir {m k : Master} (same : k.dir = m.dir) (a : Addr) (c : MsgClass) :
    k.declares a c = m.declares a c := by
  simp only [Master.declares, decl_of_dir same, slotOf_of_dir same]

/-- Any number of calls completes, each moving every ticker on by one. -/
theorem execTimes_tick (es : List MirrorEntry) (positive : ∀ e ∈ es, 0 < e.period.toNat) :
    ∀ (k j : Nat) (s : State), s.Ready → s.master.mirror = mirrorAfter j es →
      (∀ e ∈ es, s.master.declares e.addr e.slot = true) →
      ∃ t, execTimes .mirrorTick k s = some t ∧ t.master.mirror = mirrorAfter (j + k) es
  | 0, j, s, _, table, _ => ⟨s, rfl, table⟩
  | k + 1, j, s, ready, table, declared => by
    have inTable : ∀ e ∈ s.master.mirror, s.master.declares e.addr e.slot = true := by
      rw [table]
      intro e member
      obtain ⟨old, memberOld, rfl⟩ := List.mem_map.1 member
      exact declared old memberOld
    obtain ⟨tx, rx, n, r, failed, master⟩ := (returned_tick s).registers
    have table' : (returned mirrorTickBody s).master.mirror = mirrorAfter (j + 1) es := by
      rw [master, ← mirrorAfter_succ j positive, ← table]
      rfl
    have dir : (returned mirrorTickBody s).master.dir = s.master.dir := by rw [master]; rfl
    obtain ⟨t, runs, last⟩ := execTimes_tick es positive k (j + 1) (returned mirrorTickBody s)
      (by rw [State.Ready, master]; exact ready) table' fun e member => by rw [declared_of_dir dir]; exact declared e member
    refine ⟨t, ?_, by rw [last, show j + 1 + k = j + (k + 1) by omega]⟩
    rw [execTimes, exec_tick ready inTable]
    exact runs

/-- Settles O44: by induction on the number of calls. -/
theorem mirrorEntryFiresOncePerPeriod : Obligations.MirrorEntryFiresOncePerPeriod := by
  intro s k ready entries
  have positive : ∀ e ∈ s.master.mirror, 0 < e.period.toNat := fun e member => by
    obtain ⟨-, phase, -⟩ := entries e member
    have := BitVec.lt_def.1 phase
    omega
  have start : s.master.mirror = mirrorAfter 0 s.master.mirror := by
    refine (List.map_id' _).symm.trans (List.map_congr_left fun e member => ?_)
    obtain ⟨-, -, zero⟩ := entries e member
    rw [Nat.zero_mod, ← show e.ticker = BitVec.ofNat 16 0 from zero]
  obtain ⟨t, runs, table⟩ := execTimes_tick s.master.mirror positive k 0 s ready start fun e member => (entries e member).1
  rw [Nat.zero_add] at table
  refine ⟨t, runs, table, fun i e e' here here' => ?_⟩
  rw [table, mirrorAfter, List.getElem?_map, here] at here'
  obtain rfl := Option.some.inj here'
  have bound := e.period.isLt
  have low := Nat.mod_lt k (positive e (List.mem_of_getElem? here))
  rw [← BitVec.toNat_inj, BitVec.toNat_ofNat, Nat.mod_eq_of_lt (by omega)]

/-! ## The attempts of RENUM_ID (42 R189) -/

theorem afterAttempts_one (old new : Addr) : ∀ (k : Nat) (s : State),
    afterAttempts old new k (command old (renumRequest new) s).2.2 = afterAttempts old new (k + 1) s
  | 0, _ => rfl
  | k + 1, s => by
    rw [afterAttempts, afterAttempts_one old new k s]
    rfl

theorem attemptCode_one (old new : Addr) (k : Nat) (s : State) :
    attemptCode old new k (command old (renumRequest new) s).2.2 = attemptCode old new (k + 1) s := by
  rw [attemptCode, afterAttempts_one]
  rfl

theorem renumAttempts_goesOn {old new : Addr} {s : State} (n : Nat) (last : ResultCode)
    (failed : attemptCode old new 0 s ≠ .ok) :
    renumAttempts old new (n + 1) last s =
      renumAttempts old new n (attemptCode old new 0 s) (afterAttempts old new 1 s) := by
  rw [renumAttempts]
  exact if_neg failed

/-- Attempts go on to the first that is OK, or to the last. -/
theorem renumAttempts_eq (old new : Addr) (n : Nat) : ∀ (last : ResultCode) (s : State),
    ∃ k ≤ n, (∀ j < k, attemptCode old new j s ≠ .ok) ∧ (attemptCode old new k s ≠ .ok → k = n) ∧
      renumAttempts old new (n + 1) last s = (attemptCode old new k s, afterAttempts old new (k + 1) s) := by
  induction n with
  | zero =>
    intro last s
    refine ⟨0, Nat.le_refl 0, nofun, fun _ => rfl, ?_⟩
    by_cases ok : attemptCode old new 0 s = .ok
    · rw [ok, renumAttempts]
      exact if_pos ok
    · rw [renumAttempts_goesOn 0 last ok, renumAttempts]
  | succ n ih =>
    intro last s
    by_cases ok : attemptCode old new 0 s = .ok
    · refine ⟨0, Nat.zero_le _, nofun, fun failed => absurd ok failed, ?_⟩
      rw [ok, renumAttempts]
      exact if_pos ok
    · obtain ⟨k, low, before, atEnd, rest⟩ := ih (attemptCode old new 0 s) (afterAttempts old new 1 s)
      have code : ∀ j, attemptCode old new j (afterAttempts old new 1 s) = attemptCode old new (j + 1) s :=
        fun j => attemptCode_one old new j s
      have after : ∀ j, afterAttempts old new j (afterAttempts old new 1 s) = afterAttempts old new (j + 1) s :=
        fun j => afterAttempts_one old new j s
      simp only [code, after] at before atEnd rest
      refine ⟨k + 1, by omega, fun j early => ?_, fun failed => by rw [atEnd failed],
        (renumAttempts_goesOn (n + 1) last ok).trans rest⟩
      cases j with
      | zero => exact ok
      | succ j => exact before j (by omega)

/-- Settles O46: by induction on the attempts left. -/
theorem renumIdTriesUntilOk : Obligations.RenumIdTriesUntilOk := by
  intro s old new ready
  obtain ⟨k, low, before, atEnd, attempts⟩ := renumAttempts_eq old new 999 .timeout (lockMutex s)
  have body : renumBody old new (lockMutex s) =
      (attemptCode old new k (lockMutex s), afterAttempts old new (k + 1) (lockMutex s)) := by
    rw [renumBody, show Config.renumRetries = 999 + 1 from rfl, attempts]
  have whole : returned (renumBody old new) s =
      report (attemptCode old new k (lockMutex s)) (unlockMutex (afterAttempts old new (k + 1) (lockMutex s))) := by
    rw [returned, body]
  refine ⟨k, by omega, before, atEnd, ?_, ?_⟩
  · rw [exec_renum old new ready, whole]
  · rw [← whole]
    exact returned_exchanges (renumBody_move old new (lockMutex s))

/-! ## CHECK_CONFIG (42 R190) -/

/-- What CHECK_CONFIG reports: OK and the address untouched, or a failure at a declared address of the list. -/
theorem checkAddrs_report : ∀ (as : List Addr) (s : State),
    ((checkAddrs as s).1 = .ok ∧ (checkAddrs as s).2.master.failedAddress = s.master.failedAddress) ∨
    ((checkAddrs as s).1 ≠ .ok ∧ ((checkAddrs as s).1 ∈ commandCodes ∨ (checkAddrs as s).1 = .typeConflict) ∧
      (checkAddrs as s).2.master.failedAddress ∈ as ∧
      (s.master.decl (checkAddrs as s).2.master.failedAddress).valid = true)
  | [], _ => .inl ⟨rfl, rfl⟩
  | a :: as, s => by
    have asked := probeInquire_move a s
    have codes := probeInquire_codes a s
    by_cases valid : (s.master.decl a).valid = true
    · by_cases ok : (probeInquire a s).1 = .ok
      · by_cases agrees : (probeInquire a s).2.1 = (s.master.decl a).devType
        · have goesOn : checkAddrs (a :: as) s = checkAddrs as (probeInquire a s).2.2 := by
            simp only [checkAddrs, valid, if_true, ok, ne_eq, not_true_eq_false, if_false, agrees]
          rw [goesOn]
          obtain ⟨done, address⟩ | ⟨failed, code, member, declared⟩ := checkAddrs_report as (probeInquire a s).2.2
          · exact .inl ⟨done, address.trans asked.registers.2.2.2.2.2.2.2.2.2.2.1⟩
          · rw [decl_of_dir asked.dir] at declared
            exact .inr ⟨failed, code, List.mem_cons_of_mem a member, declared⟩
        · have stops : checkAddrs (a :: as) s = (.typeConflict, setFailed a (probeInquire a s).2.2) := by
            simp only [checkAddrs, valid, if_true, ok, ne_eq, not_true_eq_false, if_false, agrees, not_false_eq_true]
          rw [stops]
          exact .inr ⟨nofun, .inr rfl, List.mem_cons_self, valid⟩
      · have stops : checkAddrs (a :: as) s = ((probeInquire a s).1, setFailed a (probeInquire a s).2.2) := by
          simp only [checkAddrs, valid, if_true, ok, ne_eq, not_false_eq_true]
        rw [stops]
        exact .inr ⟨ok, .inl codes, List.mem_cons_self, valid⟩
    · have goesOn : checkAddrs (a :: as) s = checkAddrs as s := by
        rw [checkAddrs, if_neg valid]
      rw [goesOn]
      obtain ⟨done, address⟩ | ⟨failed, code, member, declared⟩ := checkAddrs_report as s
      · exact .inl ⟨done, address⟩
      · exact .inr ⟨failed, code, List.mem_cons_of_mem a member, declared⟩

/-- With nothing declared nothing is asked. -/
theorem checkAddrs_none : ∀ (as : List Addr) (s : State), (∀ a ∈ as, (s.master.decl a).valid = false) →
    checkAddrs as s = (.ok, s)
  | [], _, _ => rfl
  | a :: as, s, nothing => by
    have here := nothing a List.mem_cons_self
    rw [checkAddrs, here]
    exact checkAddrs_none as s fun b member => nothing b (List.mem_cons_of_mem a member)

/-- Settles O47: the report of the addresses in order. -/
theorem checkConfigReportsADeclaredAddress : Obligations.CheckConfigReportsADeclaredAddress := by
  intro s ready
  have op := returned_check s
  have report := checkAddrs_report usableAddrs (lockMutex s)
  have result : (returned checkConfigBody s).master.result = some (checkAddrs usableAddrs (lockMutex s)).1 := rfl
  have failed : (returned checkConfigBody s).master.failedAddress =
      (checkAddrs usableAddrs (lockMutex s)).2.master.failedAddress := unlockMutex_failedAddress _
  constructor
  · obtain ⟨tx, rx, n, r, address, master⟩ := op.registers
    have mem : (returned checkConfigBody s).mem = s.mem := (checkAddrs_move usableAddrs (lockMutex s)).mem
    refine ⟨_, exec_check ready, ⟨op.params, mem, op.inputs, op.codecOut, by rw [master]⟩, ?_, fun ok => ?_, fun bad => ?_⟩
    all_goals simp only [result, failed]
    · obtain ⟨ok, -⟩ | ⟨-, code | conflict, -⟩ := report
      · rw [ok]; decide
      · revert code
        generalize (checkAddrs usableAddrs (lockMutex s)).1 = r
        revert r; decide
      · rw [conflict]; decide
    · obtain ⟨-, same⟩ | ⟨notOk, -⟩ := report
      · exact same.trans (lockMutex_failedAddress s)
      · exact absurd (Option.some.inj (result ▸ ok)) notOk
    · obtain ⟨ok, -⟩ | ⟨-, -, member, declared⟩ := report
      · exact absurd (result.trans (congrArg some ok)) bad
      · rw [decl_of_dir (lockMutex_dir s)] at declared
        exact ⟨declared, mem_usableAddrs.1 member⟩
  · intro nothing
    have quiet : checkConfigBody (lockMutex s) = (.ok, lockMutex s) := by
      refine checkAddrs_none _ _ fun a member => ?_
      obtain ⟨notZero, notLast⟩ := mem_usableAddrs.1 member
      rw [decl_of_dir (lockMutex_dir s)]
      exact nothing a notZero notLast
    rw [exec_check ready, returned, quiet, unlock_lock]
    rfl

end Sys2Proof.Machine
end

section
/-! SUPPORT. MIRROR_TICK as the transfers of its entries, each an operation of its own (42 R188): what the bus does is
independent of the registers an operation returns its result in, so that the transfers of one call and the calls of one
transfer each leave the same bus. -/

namespace Sys2Proof.Machine

/-! ## The bus does not read the master (20 R75 to R79) -/

theorem serveTxe_updMaster (g : Master → Master) (s : State) :
    serveTxe (s.updMaster g) = (serveTxe s).updMaster g := rfl

theorem takeBreak_updMaster (g : Master → Master) (s : State) :
    takeBreak (s.updMaster g) = (takeBreak s).updMaster g := rfl

theorem takeNoise_updMaster (g : Master → Master) (s : State) :
    takeNoise (s.updMaster g) = ((takeNoise s).1, (takeNoise s).2.updMaster g) := by
  cases h : s.bus.noise <;> simp [takeNoise, State.updMaster, h]

theorem deliver_updMaster (g : Master → Master) (b : Byte) (s : State) :
    deliver b (s.updMaster g) = (deliver b s).updMaster g := by
  simp only [deliver, takeNoise_updMaster]
  cases (takeNoise s).1 <;> rfl

theorem carry_updMaster (g : Master → Master) (out : List Byte) (s : State) :
    carry out (s.updMaster g) = (carry out s).map (State.updMaster g) := by
  cases out with
  | nil => rfl
  | cons b bs => exact congrArg some (deliver_updMaster g (wiredAnd b bs) { s with bus := { s.bus with inFlight := s.bus.queued } })

theorem slot_updMaster (g : Master → Master) (mb : Option Byte) (s : State) :
    slot mb (s.updMaster g) = (slot mb s).updMaster g := by
  have line : (serveTxe (s.updMaster g)).bus.pending = (serveTxe s).bus.pending := rfl
  rw [slot, slot, line, serveTxe_updMaster, carry_updMaster]
  cases carry (mb.toList ++ (serveTxe s).bus.pending) (serveTxe s) <;> rfl

theorem flush_updMaster (g : Master → Master) (s : State) : flush (s.updMaster g) = (flush s).updMaster g := by
  have line : (s.updMaster g).bus.pending = s.bus.pending := rfl
  rw [flush, flush, line, carry_updMaster]
  cases carry s.bus.pending s <;> rfl

theorem sendBreak_updMaster (g : Master → Master) (s : State) :
    sendBreak (s.updMaster g) = (sendBreak s).updMaster g := by
  rw [sendBreak, sendBreak, raiseBreak, raiseBreak, flush_updMaster]
  rfl

theorem busTurn_updMaster (g : Master → Master) (s : State) : busTurn (s.updMaster g) = (busTurn s).updMaster g := by
  have break_ : (s.updMaster g).bus.breakOn = s.bus.breakOn := rfl
  rw [busTurn, busTurn, break_]
  split
  · exact takeBreak_updMaster g s
  · exact slot_updMaster g none s

theorem sendBytes_updMaster (g : Master → Master) : ∀ (bs : List Byte) (s : State),
    sendBytes bs (s.updMaster g) = (sendBytes bs s).updMaster g
  | [], _ => rfl
  | b :: bs, s => by rw [sendBytes, slot_updMaster, sendBytes_updMaster g bs, sendBytes]

theorem await_updMaster (g : Master → Master) (limit : Option Nat) : ∀ (fuel time : Nat) (s : State),
    await limit fuel time (s.updMaster g) = (await limit fuel time s).updMaster g
  | 0, _, _ => rfl
  | fuel + 1, time, s => by
    have counted : enough limit (s.updMaster g) = enough limit s := rfl
    have still : settled (s.updMaster g) = settled s := rfl
    have cost : turnCost (s.updMaster g) = turnCost s := rfl
    simp only [await, counted, still, cost, busTurn_updMaster, await_updMaster g limit fuel]
    split
    · rfl
    · split
      · rfl
      · split <;> rfl

/-! ## The registers an operation returns with (42 R180, 60 R340, R351) -/

/-- Another mutex depth, result and failed address. -/
def Master.relabel (d : Nat) (r : Option ResultCode) (a : Addr) (m : Master) : Master :=
  { m with mutexDepth := d, result := r, failedAddress := a }

/-- The same of the master of a system. -/
def State.relabel (d : Nat) (r : Option ResultCode) (a : Addr) (s : State) : State := s.updMaster (Master.relabel d r a)

section
variable (d : Nat) (r : Option ResultCode) (a : Addr)

theorem exchange_relabel (f : List Byte) (e : Nat) (s : State) :
    exchange f e (s.relabel d r a) = (exchange f e s).relabel d r a := by
  have timeout : ∀ q : State, (q.updMaster (Master.relabel d r a)).master.timeoutUs = q.master.timeoutUs := fun _ => rfl
  rw [exchange, exchange, awaitReply, awaitReply, transmit, transmit, State.relabel, sendBreak_updMaster,
    sendBytes_updMaster, timeout, await_updMaster]
  rfl

theorem sendBody_relabel (addr : Addr) (c : MsgClass) (payload : List Byte) (s : State) :
    sendBody addr c payload (s.relabel d r a) =
      ((sendBody addr c payload s).1, (sendBody addr c payload s).2.relabel d r a) := by
  have params : (s.relabel d r a).params = s.params := rfl
  have heard : ∀ q : State, (q.relabel d r a).master.rxbuf = q.master.rxbuf := fun _ => rfl
  simp only [sendBody, params, exchange_relabel, heard]

theorem receiveBody_relabel (addr : Addr) (c : MsgClass) (len : Byte) (buf : BufRef) (s : State) :
    receiveBody addr c len buf (s.relabel d r a) =
      ((receiveBody addr c len buf s).1, (receiveBody addr c len buf s).2.relabel d r a) := by
  have params : (s.relabel d r a).params = s.params := rfl
  have heard : ∀ q : State, (q.relabel d r a).master.rxbuf = q.master.rxbuf := fun _ => rfl
  simp only [receiveBody, params, exchange_relabel, heard]
  split <;> rfl

theorem mirrorTransfer_relabel (e : MirrorEntry) (s : State) :
    mirrorTransfer e (s.relabel d r a) = ((mirrorTransfer e s).1, (mirrorTransfer e s).2.relabel d r a) := by
  cases dir : (s.master.slotOf e.addr e.slot).dir with
  | m2s =>
    have same : ((s.relabel d r a).master.slotOf e.addr e.slot).dir = .m2s := dir
    rw [mirrorTransfer_m2s dir, mirrorTransfer_m2s same]
    exact sendBody_relabel d r a _ _ _ s
  | s2m =>
    have same : ((s.relabel d r a).master.slotOf e.addr e.slot).dir = .s2m := dir
    rw [mirrorTransfer_s2m dir, mirrorTransfer_s2m same]
    exact receiveBody_relabel d r a _ _ _ _ s

end

theorem lockMutex_relabel (s : State) :
    lockMutex s = s.relabel (lockMutex s).master.mutexDepth s.master.result s.master.failedAddress := by
  cases held : s.master.hasMutex with
  | false => rw [lockMutex_of_none held]; rfl
  | true => rw [lockMutex_of_some held]; rfl

/-- A transfer as an operation of its own: the transfer, and its code reported. -/
theorem returned_transfer (e : MirrorEntry) (s : State) :
    returned (mirrorTransfer e) s =
      (mirrorTransfer e s).2.relabel s.master.mutexDepth (some (mirrorTransfer e s).1) s.master.failedAddress := by
  have master := returned_master (mirrorTransfer_move e (lockMutex s))
  have moved := (mirrorTransfer_move e s).master
  have code : (mirrorTransfer e (lockMutex s)).1 = (mirrorTransfer e s).1 := by
    rw [lockMutex_relabel, mirrorTransfer_relabel]
  have state : (mirrorTransfer e (lockMutex s)).2 =
      (mirrorTransfer e s).2.relabel (lockMutex s).master.mutexDepth s.master.result s.master.failedAddress := by
    conv_lhs => rw [lockMutex_relabel, mirrorTransfer_relabel]
  rw [code, state] at master
  have rest : returned (mirrorTransfer e) s =
      { (mirrorTransfer e s).2 with master := (returned (mirrorTransfer e) s).master } := by
    rw [returned, state, unlockMutex_eq]
    rfl
  rw [rest, master]
  simp only [State.relabel, State.updMaster, Master.relabel]
  rw [moved]

/-- A transfer is refused by nothing, where the slot is declared as R187 and R10 ask. -/
abbrev State.Transfers (s : State) (e : MirrorEntry) : Prop :=
  e.slot ≠ Config.cmdClass ∧ (s.master.slotOf e.addr e.slot).len.toNat ≤ s.params.maxPayload

theorem exec_transfer {e : MirrorEntry} {s : State} (ready : s.Ready) (can : s.Transfers e) :
    exec (e.transfer s) s = .next (returned (mirrorTransfer e) s) := by
  obtain ⟨data, fits⟩ := can
  have lock : (lockMutex s).master.slotOf e.addr e.slot = s.master.slotOf e.addr e.slot :=
    slotOf_of_dir (lockMutex_dir s) e.addr e.slot
  cases dir : (s.master.slotOf e.addr e.slot).dir with
  | m2s =>
    have body : returned (mirrorTransfer e) s =
        returned (sendBody e.addr e.slot (Memory.load e.buf.toNat (s.master.slotOf e.addr e.slot).len.toNat s.mem)) s := by
      rw [returned, returned, mirrorTransfer_m2s (lock ▸ dir), lock]
      rfl
    rw [body, MirrorEntry.transfer]
    simp only [dir]
    exact exec_send ready data (by rw [load_length]; exact fits)
  | s2m =>
    have body : returned (mirrorTransfer e) s =
        returned (receiveBody e.addr e.slot (s.master.slotOf e.addr e.slot).len e.buf) s := by
      rw [returned, returned, mirrorTransfer_s2m (lock ▸ dir), lock]
    rw [body, MirrorEntry.transfer]
    simp only [dir]
    exact exec_receive ready data fits

theorem mirrorTransfer_ready (e : MirrorEntry) {s : State} (ready : s.Ready) : (mirrorTransfer e s).2.Ready := by
  obtain ⟨initialized, -, -, -, -, -, -, auto⟩ := (mirrorTransfer_move e s).registers
  exact ⟨initialized.trans ready.1, auto.trans ready.2⟩

theorem mirrorTransfer_transfers (e : MirrorEntry) {f : MirrorEntry} {s : State} (can : s.Transfers f) :
    (mirrorTransfer e s).2.Transfers f := by
  have moved := mirrorTransfer_move e s
  obtain ⟨-, -, -, -, dir, -, -, -⟩ := moved.registers
  rw [State.Transfers, slotOf_of_dir dir, moved.params]
  exact can

theorem noteFailure_ready (first : ResultCode) (a : Addr) {e : MirrorEntry} {s : State} (ready : s.Ready) :
    (noteFailure first a (mirrorTransfer e s)).2.Ready := by
  rw [← noteFailure_state]
  exact mirrorTransfer_ready e ready

theorem noteFailure_transfers (first : ResultCode) (a : Addr) {e f : MirrorEntry} {s : State} (can : s.Transfers f) :
    (noteFailure first a (mirrorTransfer e s)).2.Transfers f := by
  rw [← noteFailure_state]
  exact mirrorTransfer_transfers e can

/-- The first of these codes that is not OK. -/
abbrev firstFailure (codes : List (Addr × Option ResultCode)) : Option (Addr × Option ResultCode) :=
  codes.find? fun r => r.2 ≠ some .ok

/-- The transfers of one call, from where some of them have failed or not: each is the operation of its own on the same bus,
and the first failure among them is noted. -/
theorem transferAll_mirrorPass (d : Nat) (a : Addr) : ∀ (es : List MirrorEntry) (first : ResultCode)
    (r : Option ResultCode) (s : State), s.Ready → (∀ e ∈ es, s.Transfers e) →
    ∃ (codes : List (Addr × Option ResultCode)) (last : Option ResultCode),
      transferAll (es.filter fires) (s.relabel d r a) =
        some (codes, (mirrorPass es first s).2.relabel d last a) ∧
      (first = .ok → some (mirrorPass es first s).1 = ((firstFailure codes).map (·.2)).getD (some .ok) ∧
        (mirrorPass es first s).2.master.failedAddress =
          ((firstFailure codes).map (·.1)).getD s.master.failedAddress)
  | [], first, r, s, _, _ => ⟨[], r, rfl, fun ok => ⟨congrArg some ok, rfl⟩⟩
  | e :: es, first, r, s, ready, can => by
    by_cases firing : fires e = true
    · have canHere := can e List.mem_cons_self
      have op : exec (e.transfer (s.relabel d r a)) (s.relabel d r a) =
          .next ((mirrorTransfer e s).2.relabel d (some (mirrorTransfer e s).1) a) := by
        rw [exec_transfer (s := s.relabel d r a) ready canHere, returned_transfer, mirrorTransfer_relabel]
        rfl
      have state := noteFailure_state first e.addr (mirrorTransfer e s)
      have relabelled : ∀ l, (noteFailure first e.addr (mirrorTransfer e s)).2.relabel d l a =
          (mirrorTransfer e s).2.relabel d l a := fun l => by rw [← state]; rfl
      have rest : ∀ f ∈ es, (noteFailure first e.addr (mirrorTransfer e s)).2.Transfers f := fun f member =>
        noteFailure_transfers first e.addr (can f (List.mem_cons_of_mem e member))
      obtain ⟨codes, last, run, report⟩ := transferAll_mirrorPass d a es (noteFailure first e.addr (mirrorTransfer e s)).1
        (some (mirrorTransfer e s).1) (noteFailure first e.addr (mirrorTransfer e s)).2
        (noteFailure_ready first e.addr ready) rest
      have pass : mirrorPass (e :: es) first s = mirrorPass es (noteFailure first e.addr (mirrorTransfer e s)).1
          (noteFailure first e.addr (mirrorTransfer e s)).2 := by rw [mirrorPass, if_pos firing]
      refine ⟨(e.addr, some (mirrorTransfer e s).1) :: codes, last, ?_, fun ok => ?_⟩
      · rw [relabelled] at run
        rw [List.filter_cons_of_pos firing, transferAll, op, pass]
        simp only [nextOf, Option.bind_some, run]
        rfl
      · rw [pass]
        subst ok
        by_cases fine : (mirrorTransfer e s).1 = .ok
        · have kept : noteFailure .ok e.addr (mirrorTransfer e s) = (.ok, (mirrorTransfer e s).2) :=
            if_neg fun both => both.2 fine
          have next : firstFailure ((e.addr, some (mirrorTransfer e s).1) :: codes) = firstFailure codes :=
            List.find?_cons_of_neg (by simp [fine])
          rw [kept] at report ⊢
          obtain ⟨code, address⟩ := report rfl
          rw [mirrorTransfer_failed] at address
          rw [next]
          exact ⟨code, address⟩
        · have noted : noteFailure .ok e.addr (mirrorTransfer e s) =
              ((mirrorTransfer e s).1, setFailed e.addr (mirrorTransfer e s).2) := if_pos ⟨rfl, fine⟩
          have here : firstFailure ((e.addr, some (mirrorTransfer e s).1) :: codes) =
              some (e.addr, some (mirrorTransfer e s).1) := List.find?_cons_of_pos (by simp [fine])
          obtain ⟨code, address⟩ := mirrorPass_noted es (setFailed e.addr (mirrorTransfer e s).2) fine
          rw [noted, here]
          exact ⟨congrArg some code, address⟩
    · have kept : (e :: es).filter fires = es.filter fires := List.filter_cons_of_neg firing
      simp only [kept, mirrorPass, if_neg firing]
      exact transferAll_mirrorPass d a es first r s ready fun f member => can f (List.mem_cons_of_mem e member)

/-- Settles O45: the transfers one by one do not read the registers their operations return with. -/
theorem mirrorTransferIsOneExchange : Obligations.MirrorTransferIsOneExchange := by
  intro s ready declared
  have op := returned_tick s
  have shape := returned_tick_eq s
  have locked : lockMutex s.ticked =
      s.ticked.relabel (lockMutex s.ticked).master.mutexDepth s.master.result s.master.failedAddress :=
    lockMutex_relabel s.ticked
  have start : (lockMutex s.ticked).relabel s.master.mutexDepth s.master.result s.master.failedAddress = s.ticked := by
    rw [locked]; rfl
  have can : ∀ e ∈ s.master.mirror, (lockMutex s.ticked).Transfers e := fun e member => by
    obtain ⟨-, data, fits⟩ := declared e member
    rw [locked]
    exact ⟨data, fits⟩
  have readyThen : (lockMutex s.ticked).Ready := by rw [locked]; exact ready
  obtain ⟨codes, last, run, report⟩ := transferAll_mirrorPass s.master.mutexDepth s.master.failedAddress
    s.master.mirror .ok s.master.result (lockMutex s.ticked) readyThen can
  obtain ⟨code, address⟩ := report rfl
  rw [start] at run
  refine ⟨codes, _, run, ?_⟩
  rw [exec_tick ready fun e member => (declared e member).1]
  obtain ⟨tx, rx, n, r, failed, master⟩ := op.registers
  have depth : (returned mirrorTickBody s).master.mutexDepth = s.master.mutexDepth := by rw [master]; rfl
  rw [shape, unlockMutex_eq] at depth ⊢
  have before : (lockMutex s.ticked).master.failedAddress = s.master.failedAddress := lockMutex_failedAddress _
  rw [before] at address
  simp only [← code, ← address]
  revert depth
  generalize mirrorPass s.master.mirror .ok (lockMutex s.ticked) = out
  intro depth
  have back : (unlockMutex out.2).master.mutexDepth = s.master.mutexDepth := depth
  rw [back]
  rfl

end Sys2Proof.Machine
end

section
/-! SUPPORT. One slave talking to the master among slaves that hear nothing (20 R75 to R79, 44 R261): what a slot, a frame's
bytes and a reply do to it, and what the master's receiver makes of them. -/

namespace Sys2Proof.Machine

/-! ## Disturbances that change bits only (20 R96) -/

/-- The byte reaches every receiver, changed or not. -/
abbrev Noise.Carries (n : Noise) : Prop := n ≠ .lostAtMaster ∧ n ≠ .garbled

/-- The bits flipped at the master's receiver. -/
def Noise.maskAtMaster : Noise → Byte
  | .flipAll mask => mask
  | .flipAtMaster mask => mask
  | .clean => 0
  | .lostAtMaster => 0
  | .garbled => 0

/-- The bits flipped at the slaves' receivers. -/
def Noise.maskAtSlaves : Noise → Byte
  | .flipAll mask => mask
  | .flipAtMaster _ => 0
  | .clean => 0
  | .lostAtMaster => 0
  | .garbled => 0

/-- What receivers make of these bytes in the coming slots, where each flips these bits. -/
def heardAs (mask : Noise → Byte) : List Noise → List Byte → List Byte
  | _, [] => []
  | noise, b :: bs => (b ^^^ mask (noise.headD .clean)) :: heardAs mask noise.tail bs

@[simp] theorem heardAs_length (mask : Noise → Byte) : ∀ (noise : List Noise) (bs : List Byte),
    (heardAs mask noise bs).length = bs.length
  | _, [] => rfl
  | noise, _ :: bs => congrArg (· + 1) (heardAs_length mask noise.tail bs)

theorem heardAs_append (mask : Noise → Byte) : ∀ (noise : List Noise) (xs ys : List Byte),
    heardAs mask noise (xs ++ ys) = heardAs mask noise xs ++ heardAs mask (noise.drop xs.length) ys
  | _, [], _ => by simp [heardAs]
  | noise, x :: xs, ys => by
    simp only [List.cons_append, heardAs, heardAs_append mask noise.tail xs ys, List.length_cons, List.drop_tail]

/-- An undisturbed line is heard as it is. -/
theorem heardAs_clean {mask : Noise → Byte} (harmless : mask .clean = 0) : ∀ bs : List Byte, heardAs mask [] bs = bs
  | [] => rfl
  | b :: bs => by simp [heardAs, harmless, heardAs_clean harmless bs]

theorem carries_drop {noise : List Noise} (carried : ∀ n ∈ noise, n.Carries) (k : Nat) : ∀ n ∈ noise.drop k, n.Carries :=
  fun n member => carried n (List.mem_of_mem_drop member)

theorem headD_carries {noise : List Noise} (carried : ∀ n ∈ noise, n.Carries) : (noise.headD .clean).Carries := by
  cases noise with
  | nil => exact ⟨nofun, nofun⟩
  | cons n rest => exact carried n List.mem_cons_self

theorem takeNoise_eq (s : State) :
    takeNoise s = (s.bus.noise.headD .clean, { s with bus := { s.bus with noise := s.bus.noise.tail } }) := by
  cases h : s.bus.noise with
  | nil =>
    have same : { s with bus := { s.bus with noise := [] } } = s := by rw [← h]
    simp only [takeNoise, h, List.headD_nil, List.tail_nil, same]
  | cons n rest => simp [takeNoise, h]

/-- A slot that carries its byte to everybody. -/
theorem deliver_eq {s : State} (b : Byte) (carried : (s.bus.noise.headD .clean).Carries) :
    deliver b s = rxAll (b ^^^ (s.bus.noise.headD .clean).maskAtSlaves)
      ({ s with bus := { s.bus with noise := s.bus.noise.tail } }.hear
        [b ^^^ (s.bus.noise.headD .clean).maskAtMaster]) := by
  simp only [deliver, takeNoise_eq]
  cases h : s.bus.noise.headD .clean with
  | clean => simp [Noise.maskAtMaster, Noise.maskAtSlaves]
  | flipAll mask => rfl
  | flipAtMaster mask => simp [Noise.maskAtMaster, Noise.maskAtSlaves]
  | lostAtMaster => exact absurd h carried.1
  | garbled => exact absurd h carried.2

/-! ## One slave among deaf ones -/

/-- A slave that neither hears nor sends anything before the next break. -/
abbrev Slave.Deaf (sl : Slave) : Prop := sl.st = .waitBreak ∧ sl.txEn = false

/-- Every slave of a list but the one in place `k` is deaf. -/
abbrev DeafBut (l : List Slave) (k : Nat) : Prop :=
  k < l.length ∧ ∀ (j : Nat) (y : Slave), l[j]? = some y → j ≠ k → y.Deaf

/-- The system in the middle of a frame, where only the slave in place `k`, now `x`, takes part: the free values, what the
master's receiver heard, the disturbances to come, and the byte in the slave's transmitter, if any. -/
def State.talking (s : State) (l : List Slave) (k : Nat) (x : Slave) (f : Free) (heard : List Byte) (noise : List Noise)
    (out : Option Byte) : State :=
  { s with
    slaves := l.set k x
    free := f
    bus := { breakOn := false, inFlight := out.toList.map fun b => (k, b), stream := heard, noise := noise } }

section
variable {s : State} {l : List Slave} {k : Nat} {x : Slave} {f : Free} {heard : List Byte} {noise : List Noise}
  {out : Option Byte}

theorem talking_at (low : k < l.length) : (s.talking l k x f heard noise out).slaves[k]? = some x := by
  simp [State.talking, low]

theorem talking_other (deaf : DeafBut l k) {j : Nat} {y : Slave}
    (at_j : (s.talking l k x f heard noise out).slaves[j]? = some y) (other : j ≠ k) : y.Deaf := by
  have there : l[j]? = some y := by simpa [State.talking, Ne.symm other] using at_j
  exact deaf.2 j y there other

/-- Only the slave in place `k` reacts, where the handler leaves a deaf slave alone. -/
theorem talking_react (deaf : DeafBut l k) (h : Nat → Slave → Free → Reaction)
    (quiet : ∀ j y g, y.Deaf → h j y g = .quiet y g) (alone : out = none ∨ (h k x f).tx = none) :
    (s.talking l k x f heard noise out).react h =
      s.talking l k (h k x f).slave (h k x f).free heard noise (out.or (h k x f).tx) := by
  rw [react_at h (talking_at deaf.1) fun j y g at_j other => quiet j y g (talking_other deaf at_j other)]
  have bytes : (out.toList.map fun b => (k, b)) ++ (h k x f).tx.toList.map (fun b => (k, b)) =
      (out.or (h k x f).tx).toList.map fun b => (k, b) := by
    cases out with
    | none => rfl
    | some b => simp [alone.resolve_left nofun]
  simp only [State.talking, List.set_set, bytes]

theorem onRx_deaf (p : Params) (b : Byte) {y : Slave} (deaf : y.Deaf) (g : Free) : onRx p b y g = .quiet y g := by
  simp [onRx, deaf.1]

theorem onTick_deaf (p : Params) {y : Slave} (deaf : y.Deaf) (g : Free) : onTick p y g = .quiet y g := by
  simp [onTick, deaf.1]

/-- A byte reaches the slave, and the master's receiver. -/
theorem talking_deliver (deaf : DeafBut l k) (b : Byte) (carried : (noise.headD .clean).Carries) {y : Slave} {g : Free}
    {tx : Option Byte} (hears : onRx s.params (b ^^^ (noise.headD .clean).maskAtSlaves) x f = ⟨y, g, tx⟩) :
    deliver b (s.talking l k x f heard noise none) =
      s.talking l k y g (heard ++ [b ^^^ (noise.headD .clean).maskAtMaster]) noise.tail tx := by
  have reacts := talking_react (s := s) (x := x) (f := f) (noise := noise.tail) (out := none)
    (heard := heard ++ [b ^^^ (noise.headD .clean).maskAtMaster]) deaf
    (fun _ sl f => onRx s.params (b ^^^ (noise.headD .clean).maskAtSlaves) sl f)
    (fun _ y g deaf => onRx_deaf _ _ deaf g) (.inl rfl)
  rw [hears] at reacts
  rw [deliver_eq b carried]
  exact reacts

theorem talking_serve_silent (deaf : DeafBut l k) (silent : x.txEn = false) :
    serveTxe (s.talking l k x f heard noise out) = s.talking l k x f heard noise out := by
  refine serveTxe_idle fun y member => ?_
  obtain ⟨j, at_j⟩ := List.mem_iff_getElem?.1 member
  by_cases here : j = k
  · rw [here, talking_at deaf.1] at at_j
    rw [← Option.some.inj at_j, silent]
  · exact (talking_other deaf at_j here).2

/-- A slot with the master's byte, while the slave listens. -/
theorem talking_slot_master (deaf : DeafBut l k) (b : Byte) (carried : (noise.headD .clean).Carries)
    (silent : x.txEn = false) {y : Slave} {g : Free} {tx : Option Byte}
    (hears : onRx s.params (b ^^^ (noise.headD .clean).maskAtSlaves) x f = ⟨y, g, tx⟩) :
    slot (some b) (s.talking l k x f heard noise none) =
      s.talking l k y g (heard ++ [b ^^^ (noise.headD .clean).maskAtMaster]) noise.tail tx := by
  rw [slot, talking_serve_silent deaf silent]
  exact talking_deliver deaf b carried hears

/-- A slot with the byte in the slave's transmitter, which it hears itself. -/
theorem talking_slot_echo (deaf : DeafBut l k) (b : Byte) (carried : (noise.headD .clean).Carries)
    (silent : x.txEn = false) {y : Slave} {g : Free} {tx : Option Byte}
    (hears : onRx s.params (b ^^^ (noise.headD .clean).maskAtSlaves) x f = ⟨y, g, tx⟩) :
    slot none (s.talking l k x f heard noise (some b)) =
      s.talking l k y g (heard ++ [b ^^^ (noise.headD .clean).maskAtMaster]) noise.tail tx := by
  rw [slot, talking_serve_silent deaf silent]
  exact talking_deliver deaf b carried hears

/-- A slot the slave answers in: TXE takes the byte, and the slave does not listen to itself. -/
theorem talking_slot_reply (deaf : DeafBut l k) (carried : (noise.headD .clean).Carries) (asked : x.txEn = true)
    {y : Slave} {g : Free} {b : Byte} (sends : onTxe s.params x f = ⟨y, g, some b⟩)
    (ignores : ∀ c, onRx s.params c y g = .quiet y g) :
    slot none (s.talking l k x f heard noise none) =
      s.talking l k y g (heard ++ [b ^^^ (noise.headD .clean).maskAtMaster]) noise.tail none := by
  have served : serveTxe (s.talking l k x f heard noise none) = s.talking l k y g heard noise (some b) := by
    have free : txeIfFree (s.talking l k x f heard noise none) k x f = ⟨y, g, some b⟩ := by
      simp [txeIfFree, asked, State.talking, Bus.holds, sends]
    have reacts := talking_react (s := s) (x := x) (f := f) (heard := heard) (noise := noise) (out := none) deaf
      (fun i sl g => txeIfFree (s.talking l k x f heard noise none) i sl g)
      (fun j y g deaf => by simp [txeIfFree, deaf.2]) (.inl rfl)
    rw [free] at reacts
    exact reacts
  rw [slot, served]
  exact talking_deliver deaf b carried (ignores _)

/-- A slot nobody sends in is a tick. -/
theorem talking_slot_tick (deaf : DeafBut l k) (silent : x.txEn = false) {y : Slave} {g : Free} {tx : Option Byte}
    (ticks : onTick s.params x f = ⟨y, g, tx⟩) :
    slot none (s.talking l k x f heard noise none) = s.talking l k y g heard noise tx := by
  have reacts := talking_react (s := s) (x := x) (f := f) (heard := heard) (noise := noise) (out := none) deaf
    (fun _ sl f => onTick s.params sl f) (fun _ y g deaf => onTick_deaf _ deaf g) (.inl rfl)
  rw [ticks] at reacts
  rw [slot, talking_serve_silent deaf silent]
  exact reacts

end

end Sys2Proof.Machine
end

section
/-! SUPPORT. A frame and its reply (44 R262 to R277; 20 R79): the header at every slave, the rest of the frame at the slave it
addresses, and the reply while the master waits. -/

namespace Sys2Proof.Machine

/-! ## Sequences of bytes at one slave -/

/-- A slave takes these bytes one after another and transmits nothing. -/
inductive Takes (p : Params) : List Byte → Slave → Free → Slave → Free → Prop where
  | done (x : Slave) (f : Free) : Takes p [] x f x f
  | byte {b : Byte} {bs : List Byte} {x y z : Slave} {f g e : Free} : x.txEn = false → onRx p b x f = ⟨y, g, none⟩ →
      Takes p bs y g z e → Takes p (b :: bs) x f z e

theorem Takes.append {p : Params} {bs cs : List Byte} {x y z : Slave} {f g e : Free} (h : Takes p bs x f y g)
    (k : Takes p cs y g z e) : Takes p (bs ++ cs) x f z e := by
  induction h with
  | done x f => exact k
  | byte silent hears _ ih => exact .byte silent hears (ih k)

theorem Takes.one {p : Params} {b : Byte} {x y : Slave} {f g : Free} (silent : x.txEn = false)
    (hears : onRx p b x f = ⟨y, g, none⟩) : Takes p [b] x f y g := .byte silent hears (.done y g)

theorem takes_deaf (p : Params) {x : Slave} (deaf : x.Deaf) (f : Free) : ∀ bs : List Byte, Takes p bs x f x f
  | [] => .done x f
  | b :: bs => .byte deaf.2 (onRx_deaf p b deaf f) (takes_deaf p deaf f bs)

/-- A slave takes these bytes one after another, transmits nothing and draws nothing. -/
inductive Listens (p : Params) : List Byte → Slave → Slave → Prop where
  | done (x : Slave) : Listens p [] x x
  | byte {b : Byte} {bs : List Byte} {x y z : Slave} : x.txEn = false → (∀ f, onRx p b x f = ⟨y, f, none⟩) →
      Listens p bs y z → Listens p (b :: bs) x z

theorem Listens.takes {p : Params} {bs : List Byte} {x y : Slave} (h : Listens p bs x y) (f : Free) : Takes p bs x f y f := by
  induction h with
  | done x => exact .done x f
  | byte silent hears _ ih => exact .byte silent (hears f) ih

/-- A slave that does not listen to what it sends. -/
abbrev Slave.Ignores (p : Params) (x : Slave) : Prop := ∀ b f, onRx p b x f = .quiet x f

/-- A slave sends these bytes, one on each TXE. -/
inductive Sends (p : Params) : List Byte → Slave → Free → Slave → Free → Prop where
  | done (x : Slave) (f : Free) : Sends p [] x f x f
  | byte {b : Byte} {bs : List Byte} {x y z : Slave} {f g e : Free} : x.txEn = true → onTxe p x f = ⟨y, g, some b⟩ →
      y.Ignores p → Sends p bs y g z e → Sends p (b :: bs) x f z e

theorem Sends.append {p : Params} {bs cs : List Byte} {x y z : Slave} {f g e : Free} (h : Sends p bs x f y g)
    (k : Sends p cs y g z e) : Sends p (bs ++ cs) x f z e := by
  induction h with
  | done x f => exact k
  | byte asked sends ignores _ ih => exact .byte asked sends ignores (ih k)

theorem Sends.one {p : Params} {b : Byte} {x y : Slave} {f g : Free} (asked : x.txEn = true)
    (sends : onTxe p x f = ⟨y, g, some b⟩) (ignores : y.Ignores p) : Sends p [b] x f y g :=
  .byte asked sends ignores (.done y g)

/-- A slave sends these bytes, one on each TXE, and draws nothing. -/
inductive Replies (p : Params) : List Byte → Slave → Slave → Prop where
  | done (x : Slave) : Replies p [] x x
  | byte {b : Byte} {bs : List Byte} {x y z : Slave} : x.txEn = true → (∀ f, onTxe p x f = ⟨y, f, some b⟩) →
      y.Ignores p → Replies p bs y z → Replies p (b :: bs) x z

theorem Replies.sends {p : Params} {bs : List Byte} {x y : Slave} (h : Replies p bs x y) (f : Free) : Sends p bs x f y f := by
  induction h with
  | done x => exact .done x f
  | byte asked sends ignores _ ih => exact .byte asked (sends f) ignores ih

theorem Replies.append {p : Params} {bs cs : List Byte} {x y z : Slave} (h : Replies p bs x y) (k : Replies p cs y z) :
    Replies p (bs ++ cs) x z := by
  induction h with
  | done x => exact k
  | byte asked sends ignores _ ih => exact .byte asked sends ignores (ih k)

section
variable {s : State} {l : List Slave} {k : Nat}

/-- The rest of a frame at the slave that listens. -/
theorem talking_sendBytes (deaf : DeafBut l k) : ∀ {bs : List Byte} {x y : Slave} {f g : Free} {heard : List Byte}
    {noise : List Noise}, (∀ n ∈ noise, n.Carries) → Takes s.params (heardAs Noise.maskAtSlaves noise bs) x f y g →
      sendBytes bs (s.talking l k x f heard noise none) =
        s.talking l k y g (heard ++ heardAs Noise.maskAtMaster noise bs) (noise.drop bs.length) none
  | [], _, _, _, _, heard, _, _, .done _ _ => by simp [sendBytes, heardAs]
  | b :: bs, _, _, _, _, heard, noise, carried, .byte silent hears rest => by
    rw [sendBytes, talking_slot_master deaf b (headD_carries carried) silent hears,
      talking_sendBytes deaf (by rw [← List.drop_one]; exact carries_drop carried 1) rest]
    simp [heardAs]

/-! ## Waiting -/

/-- A wait takes a turn where it is not over. -/
theorem await_turn {limit : Option Nat} {fuel time : Nat} {q : State} (more : enough limit q = false)
    (moves : settled q = false) (inTime : turnCost q ≤ time) (turns : 0 < fuel) :
    await limit fuel time q = await limit (fuel - 1) (time - turnCost q) (busTurn q) := by
  obtain ⟨n, rfl⟩ := Nat.exists_eq_add_one_of_ne_zero (Nat.pos_iff_ne_zero.1 turns)
  simp [await, more, moves, Nat.not_lt.2 inTime]

theorem charTimeUs_pos (p : Params) : 1 ≤ charTimeUs p := Nat.le_max_left _ _

variable {x : Slave} {f : Free} {heard : List Byte} {noise : List Noise} {out : Option Byte}

theorem talking_busTurn : busTurn (s.talking l k x f heard noise out) = slot none (s.talking l k x f heard noise out) := rfl

theorem talking_settled (deaf : DeafBut l k) (here : x.Deaf) : settled (s.talking l k x f heard noise none) = true := by
  have all : (s.talking l k x f heard noise none).slaves.all fun sl => !sl.txEn && sl.st ≠ .waitRenumTimer := by
    rw [List.all_eq_true]
    intro y member
    obtain ⟨j, at_j⟩ := List.mem_iff_getElem?.1 member
    obtain ⟨st, silent⟩ : y.Deaf := by
      by_cases same : j = k
      · rw [same, talking_at deaf.1] at at_j
        exact Option.some.inj at_j ▸ here
      · exact talking_other deaf at_j same
    simp [st, silent]
  simp only [settled, all]
  rfl

theorem talking_moves (deaf : DeafBut l k) (moves : x.txEn = true ∨ x.st = .waitRenumTimer) :
    settled (s.talking l k x f heard noise out) = false := by
  have notAll : ((s.talking l k x f heard noise out).slaves.all fun sl => !sl.txEn && sl.st ≠ .waitRenumTimer) = false := by
    rw [List.all_eq_false]
    refine ⟨x, List.mem_iff_getElem?.2 ⟨k, talking_at deaf.1⟩, ?_⟩
    obtain on | waits := moves <;> simp [*]
  rw [settled, notAll, Bool.and_false]

theorem talking_cost_asked (deaf : DeafBut l k) (asked : x.txEn = true) :
    turnCost (s.talking l k x f heard noise out) = charTimeUs s.params := by
  have any : (s.talking l k x f heard noise out).slaves.any (·.txEn) = true := by
    rw [List.any_eq_true]
    exact ⟨x, List.mem_iff_getElem?.2 ⟨k, talking_at deaf.1⟩, asked⟩
  simp only [turnCost, any, Bool.or_true, if_true]
  rfl

/-- The master waits for a count, or for everything. -/
abbrev NotBefore (limit : Option Nat) (n : Nat) : Prop := ∀ e ∈ limit, n ≤ e

theorem enough_eq_false {limit : Option Nat} {n : Nat} {q : State} (low : NotBefore limit n) (fewer : q.bus.stream.length < n) :
    enough limit q = false := by
  cases limit with
  | none => rfl
  | some e => exact decide_eq_false (by have := low e rfl; omega)

/-- While the master waits the slave sends its reply, and falls silent. -/
theorem talking_reply (deaf : DeafBut l k) {limit : Option Nat} : ∀ {reply : List Byte} {x y : Slave} {f g : Free}
    {heard : List Byte} {noise : List Noise} {fuel time : Nat}, (∀ n ∈ noise, n.Carries) → Sends s.params reply x f y g →
      y.Deaf → NotBefore limit (heard.length + reply.length) → reply.length * charTimeUs s.params ≤ time → time ≤ fuel →
      await limit fuel time (s.talking l k x f heard noise none) =
        s.talking l k y g (heard ++ heardAs Noise.maskAtMaster noise reply) (noise.drop reply.length) none
  | [], _, _, _, _, heard, noise, _, _, _, .done _ _, silent, _, _, _ => by
    rw [await_settled _ _ _ _ (talking_settled deaf silent)]
    simp [heardAs]
  | b :: bs, x, _, f, _, heard, noise, fuel, time, carried, .byte asked sends ignores rest, silent, low, inTime, fuelled => by
    have cost := talking_cost_asked (s := s) (f := f) (heard := heard) (noise := noise) (out := none) deaf asked
    have char := charTimeUs_pos s.params
    simp only [List.length_cons, Nat.succ_mul] at inTime low
    rw [await_turn (enough_eq_false low (by show heard.length < _; omega)) (talking_moves deaf (.inl asked))
      (by omega) (by omega), talking_busTurn, talking_slot_reply deaf (headD_carries carried) asked sends (fun c => ignores c _), cost,
      talking_reply deaf (by rw [← List.drop_one]; exact carries_drop carried 1) rest silent
        (by simpa [Nat.add_assoc, Nat.add_comm 1] using low) (by omega) (by omega)]
    simp [heardAs]

end

/-! ## The header at every slave (44 R262, R264, R265) -/

/-- A slave after a break and two header bytes. -/
def Slave.headed (p : Params) (h c : Byte) (sl : Slave) : Slave := rxHeaderCrc p c (rxHeaderByte p h sl.onBreak)

/-- A handler that only changes the slaves changes each by itself. -/
theorem reactAll_map (h : Nat → Slave → Free → Reaction) (g : Slave → Slave) : ∀ (l : List Slave) (i : Nat) (f : Free),
    (∀ j, ∀ sl ∈ l, ∀ e, h j sl e = .quiet (g sl) e) → reactAll h i l f = (l.map g, f, [])
  | [], _, _, _ => rfl
  | x :: l, i, f, all => by
    have rest := reactAll_map h g l (i + 1) f fun j sl member => all j sl (List.mem_cons_of_mem x member)
    simp [reactAll, all i x List.mem_cons_self, rest]

theorem rxAll_map {s : State} {b : Byte} (g : Slave → Slave)
    (hears : ∀ sl ∈ s.slaves, ∀ f, onRx s.params b sl f = .quiet (g sl) f) :
    rxAll b s = { s with slaves := s.slaves.map g } := by
  simp [rxAll, State.react, reactAll_map _ g s.slaves 0 s.free fun _ sl member f => hears sl member f]

/-- The coming two slots are undisturbed. -/
abbrev Bus.HeaderClean (b : Bus) : Prop := b.inFlight = [] ∧ (b.noise = [] ∨ ∃ rest, b.noise = .clean :: .clean :: rest)

/-- An undisturbed slot of the master's that every slave takes without transmitting. -/
theorem slot_map {s : State} {b : Byte} (g : Slave → Slave) (silent : ∀ sl ∈ s.slaves, sl.txEn = false)
    (empty : s.bus.inFlight = []) (clean : s.bus.noise.headD .clean = .clean)
    (hears : ∀ sl ∈ s.slaves, ∀ f, onRx s.params b sl f = .quiet (g sl) f) :
    slot (some b) s = { s with
      slaves := s.slaves.map g
      bus := { s.bus with stream := s.bus.stream ++ [b], noise := s.bus.noise.tail } } := by
  have carried : (s.bus.noise.headD .clean).Carries := by rw [clean]; exact ⟨nofun, nofun⟩
  have line : { s with bus := { s.bus with inFlight := s.bus.queued } } = s := by
    rw [Bus.queued, empty, laterBytes, ← empty]
  have out : (some b).toList ++ s.bus.pending = [b] := by simp [Bus.pending, empty, firstBytes]
  simp only [slot, serveTxe_idle silent, out, carry, line]
  rw [deliver_eq _ carried, clean]
  have unchanged : wiredAnd b [] ^^^ 0 = b := BitVec.xor_zero
  simp only [Noise.maskAtMaster, Noise.maskAtSlaves, unchanged]
  exact rxAll_map g hears

/-- The system after the break of a frame, while nothing is in flight: the slaves, what the master's receiver heard and the
disturbances to come. -/
def State.hearing (s : State) (l : List Slave) (heard : List Byte) (noise : List Noise) : State :=
  { s with
    slaves := l
    free := s.freeAfterEcho
    bus := { breakOn := false, inFlight := [], stream := heard, noise := noise } }

theorem sendBreak_hearing {s : State} (empty : s.bus.inFlight = []) :
    sendBreak s = s.hearing (s.slaves.map Slave.onBreak) s.echo s.bus.noise := sendBreak_clean empty

theorem slot_hearing {s : State} {l : List Slave} {heard : List Byte} {noise : List Noise} {b : Byte} (g : Slave → Slave)
    (silent : ∀ sl ∈ l, sl.txEn = false) (clean : noise.headD .clean = .clean)
    (hears : ∀ sl ∈ l, ∀ f, onRx s.params b sl f = .quiet (g sl) f) :
    slot (some b) (s.hearing l heard noise) = s.hearing (l.map g) (heard ++ [b]) noise.tail :=
  slot_map (s := s.hearing l heard noise) g silent rfl clean hears

/-- Bytes that every slave ignores. -/
theorem hearing_sendBytes_deaf {s : State} {l : List Slave} (deaf : ∀ x ∈ l, x.Deaf) : ∀ (bs heard : List Byte),
    sendBytes bs (s.hearing l heard []) = s.hearing l (heard ++ bs) []
  | [], heard => by rw [sendBytes, List.append_nil]
  | b :: bs, heard => by
    rw [sendBytes, slot_hearing id (fun x member => (deaf x member).2) rfl fun x member f => onRx_deaf s.params b (deaf x member) f,
      List.map_id, List.tail_nil, hearing_sendBytes_deaf deaf bs, List.append_assoc, List.singleton_append]

/-- The break and the header of a frame. -/
theorem header_eq {s : State} (clean : s.bus.HeaderClean) (h c : Byte) (body : List Byte) :
    transmit (h :: c :: body) s =
      sendBytes body (s.hearing (s.slaves.map (Slave.headed s.params h c)) (s.echo ++ [h, c]) (s.bus.noise.drop 2)) := by
  obtain ⟨empty, quiet⟩ := clean
  have first : s.bus.noise.headD .clean = .clean := by obtain none | ⟨rest, two⟩ := quiet <;> simp [*]
  have second : s.bus.noise.tail.headD .clean = .clean := by obtain none | ⟨rest, two⟩ := quiet <;> simp [*]
  rw [transmit, sendBreak_hearing empty, sendBytes, sendBytes,
    slot_hearing (rxHeaderByte s.params h) (by simp) first ?first,
    slot_hearing (rxHeaderCrc s.params c) (by simp [rxHeaderByte]) second ?second]
  case first =>
    intro sl member f
    obtain ⟨x, -, rfl⟩ := List.mem_map.1 member
    exact onRx_header (onBreak_st x) (onBreak_idx x)
  case second =>
    intro sl member f
    obtain ⟨x, inner, rfl⟩ := List.mem_map.1 member
    obtain ⟨y, -, rfl⟩ := List.mem_map.1 inner
    exact onRx_headerCrc (onBreak_st y) (by simp [rxHeaderByte])
  have rest : s.bus.noise.tail.tail = s.bus.noise.drop 2 := by rw [← List.drop_one, ← List.drop_one, List.drop_drop]
  rw [List.map_map, List.map_map, List.append_assoc, rest]
  rfl

/-- A header for another address or with a bad CRC is discarded (44 R265). -/
theorem headed_foreign {p : Params} (laws : CrcLaws p) {h c : Byte} {sl : Slave}
    (foreign : sl.ownAddr ≠ headerAddr h ∨ c ≠ headerCrc p h) : sl.headed p h c = sl.discarded p h c := by
  rw [Slave.headed, rxHeaderCrc_foreign]
  · simp [rxHeaderByte, Slave.discarded]
  · simp only [rxHeaderByte, onBreak_crc, onBreak_ownAddr]
    exact foreign.symm.imp (fun bad good => bad ((headerCrc_iff laws h c).1 good)) Ne.symm

theorem headed_good {p : Params} (laws : CrcLaws p) (h : Byte) (sl : Slave) :
    crc8 p (rxHeaderByte p h sl.onBreak).crc (headerCrc p h) = 0 := by
  simp only [rxHeaderByte, onBreak_crc]
  exact (headerCrc_iff laws h _).2 rfl

theorem discarded_deaf (p : Params) (h c : Byte) (sl : Slave) : (sl.discarded p h c).Deaf := ⟨rfl, onBreak_txEn sl⟩

/-! ## A frame from the break to the end of the reply -/

section
variable {s : State} {k : Nat} {sl : Slave} {a : Addr} {h hc : Byte}

theorem othersDiscard_deaf (at_k : s.slaves[k]? = some sl) :
    DeafBut (s.slaves.map (Slave.discarded s.params h hc)) k := by
  refine ⟨by simpa using (List.getElem?_eq_some_iff.1 at_k).1, fun j y at_j _ => ?_⟩
  obtain ⟨x, -, rfl⟩ := List.mem_map.1 (List.mem_of_getElem? at_j)
  exact discarded_deaf s.params h hc x

/-- The slave in place `k` and nobody else lives at `a`; the rest of `State.Addressed` but for the disturbances. -/
abbrev State.Lives (s : State) (k : Nat) (sl : Slave) (a : Addr) : Prop :=
  s.slaves[k]? = some sl ∧ sl.ownAddr = a ∧
  (∀ (j : Nat) (other : Slave), s.slaves[j]? = some other → j ≠ k → other.ownAddr ≠ a) ∧ CrcLaws s.params

/-- After the header one slave is where it wants the frame, the others discarded it. -/
theorem headed_all (lives : s.Lives k sl a) (header : headerAddr h = a) :
    s.slaves.map (Slave.headed s.params h hc) = s.othersDiscard h hc k (sl.headed s.params h hc) := by
  obtain ⟨at_k, -, others, laws⟩ := lives
  refine List.ext_getElem? fun j => ?_
  rw [State.othersDiscard, List.getElem?_set]
  by_cases here : k = j
  · subst here
    have low := (List.getElem?_eq_some_iff.1 at_k).1
    rw [if_pos rfl, List.getElem?_map, at_k, List.length_map, if_pos low]
    rfl
  · rw [if_neg here, List.getElem?_map, List.getElem?_map]
    cases at_j : s.slaves[j]? with
    | none => rfl
    | some y => exact congrArg some (headed_foreign laws (.inl (header ▸ others j y at_j (Ne.symm here))))

/-- A frame up to its last byte: the slave it addresses takes it, the others discard it at the header. -/
theorem transmit_taken (lives : s.Lives k sl a) (header : headerAddr h = a) (clean : s.bus.HeaderClean)
    (carried : ∀ n ∈ s.bus.noise.drop 2, n.Carries) {body : List Byte} {y : Slave} {f : Free}
    (takes : Takes s.params (heardAs Noise.maskAtSlaves (s.bus.noise.drop 2) body) (sl.headed s.params h hc)
      s.freeAfterEcho y f) :
    transmit (h :: hc :: body) s =
      s.talking (s.slaves.map (Slave.discarded s.params h hc)) k y f
        (s.echo ++ [h, hc] ++ heardAs Noise.maskAtMaster (s.bus.noise.drop 2) body)
        ((s.bus.noise.drop 2).drop body.length) none := by
  have start : s.hearing (s.slaves.map (Slave.headed s.params h hc)) (s.echo ++ [h, hc]) (s.bus.noise.drop 2) =
      s.talking (s.slaves.map (Slave.discarded s.params h hc)) k (sl.headed s.params h hc) s.freeAfterEcho
        (s.echo ++ [h, hc]) (s.bus.noise.drop 2) none := by
    rw [headed_all lives header]
    rfl
  rw [header_eq clean, start, talking_sendBytes (othersDiscard_deaf lives.1) carried takes]

/-- A conversation: the frame, which the slave it addresses takes, and the reply while the master waits. -/
theorem conversation (lives : s.Lives k sl a) (header : headerAddr h = a) (clean : s.bus.HeaderClean)
    (carried : ∀ n ∈ s.bus.noise.drop 2, n.Carries) {body reply : List Byte} {y z : Slave} {f g : Free}
    {limit : Option Nat}
    (takes : Takes s.params (heardAs Noise.maskAtSlaves (s.bus.noise.drop 2) body) (sl.headed s.params h hc)
      s.freeAfterEcho y f)
    (sends : Sends s.params reply y f z g) (deaf : z.Deaf)
    (low : NotBefore limit (s.echo.length + 2 + body.length + reply.length))
    (inTime : s.TimeFor reply.length) :
    awaitReply limit (transmit (h :: hc :: body) s) =
      s.talking (s.slaves.map (Slave.discarded s.params h hc)) k z g
        (s.echo ++ [h, hc] ++ heardAs Noise.maskAtMaster (s.bus.noise.drop 2) (body ++ reply))
        (s.bus.noise.drop (2 + body.length + reply.length)) none := by
  rw [transmit_taken lives header clean carried takes]
  refine (talking_reply (othersDiscard_deaf lives.1) (carries_drop carried _) sends deaf ?_ inTime (Nat.le_refl _)).trans ?_
  · intro e he
    have := low e he
    simp only [List.length_append, heardAs_length, List.length_cons, List.length_nil]
    omega
  · simp [heardAs_append, Nat.add_assoc]

/-- The system after a frame on an undisturbed bus. -/
theorem talking_over {z : Slave} {g : Free} {heard : List Byte} :
    s.talking (s.slaves.map (Slave.discarded s.params h hc)) k z g (s.echo ++ heard) [] none =
      s.afterFrame (s.othersDiscard h hc k z) g heard := rfl

/-- The same on an undisturbed bus. -/
theorem conversation_clean (addressed : s.Addressed k sl a) (header : headerAddr h = a) {body reply : List Byte}
    {y z : Slave} {f g : Free} {limit : Option Nat}
    (takes : Takes s.params body (sl.headed s.params h hc) s.freeAfterEcho y f)
    (sends : Sends s.params reply y f z g) (deaf : z.Deaf)
    (low : NotBefore limit (s.echo.length + 2 + body.length + reply.length))
    (inTime : s.TimeFor reply.length) :
    awaitReply limit (transmit (h :: hc :: body) s) =
      s.afterFrame (s.othersDiscard h hc k z) g (h :: hc :: (body ++ reply)) := by
  obtain ⟨at_k, own, others, ⟨empty, quiet⟩, laws⟩ := addressed
  rw [conversation ⟨at_k, own, others, laws⟩ header ⟨empty, .inl quiet⟩ (by simp [quiet])
    (by rw [quiet, List.drop_nil, heardAs_clean rfl]; exact takes) sends deaf low inTime, quiet, List.drop_nil,
    heardAs_clean rfl, List.drop_nil, List.append_assoc, talking_over]
  rfl

end

/-- A frame that nobody takes: the master hears the frame alone. -/
theorem conversation_nobody {s : State} {h hc : Byte} (body : List Byte) (limit : Option Nat) (clean : s.CleanBus)
    (laws : CrcLaws s.params) (foreign : ∀ sl ∈ s.slaves, sl.ownAddr ≠ headerAddr h ∨ hc ≠ headerCrc s.params h) :
    awaitReply limit (transmit (h :: hc :: body) s) =
      s.afterFrame (s.slaves.map (Slave.discarded s.params h hc)) s.freeAfterEcho (h :: hc :: body) := by
  obtain ⟨empty, quiet⟩ := clean
  have all : s.slaves.map (Slave.headed s.params h hc) = s.slaves.map (Slave.discarded s.params h hc) :=
    List.map_congr_left fun sl member => headed_foreign laws (foreign sl member)
  have deaf : ∀ x ∈ s.slaves.map (Slave.discarded s.params h hc), x.Deaf := by
    intro x member
    obtain ⟨y, -, rfl⟩ := List.mem_map.1 member
    exact discarded_deaf s.params h hc y
  have sent := hearing_sendBytes_deaf (s := s) deaf body (s.echo ++ [h, hc])
  rw [header_eq ⟨empty, .inl quiet⟩, all, quiet, List.drop_nil, sent, awaitReply, await_settled _ _ _ _ ?still]
  case still =>
    simp only [settled, State.hearing, List.isEmpty_nil, Bool.not_false, Bool.true_and, List.all_eq_true]
    intro x member
    obtain ⟨st, silent⟩ := deaf x member
    simp [st, silent]
  rw [State.hearing, State.afterFrame, List.append_assoc]
  rfl

end Sys2Proof.Machine
end

section
/-! SUPPORT. What the addressed slave makes of a data frame (44 R264 to R269, R275, R276): the bytes it takes and the bytes it
sends, up to the state it is left in. -/

namespace Sys2Proof.Machine

theorem ignores_of_st {p : Params} {x : Slave} (st : x.st = .waitBreak ∨ x.st = .txMsg ∨ x.st = .txCtrlResp) : x.Ignores p := by
  intro b f
  obtain st | st | st := st <;> simp [onRx, st]

section
variable {p : Params} {h : Byte} {sl : Slave}

/-! ## A class the device ignores (44 R266) -/

theorem headed_data (laws : CrcLaws p) (own : headerAddr h = sl.ownAddr) (data : headerClass h ≠ Config.cmdClass) :
    sl.headed p h (headerCrc p h) = classifyHeader (headerClass h) { rxHeaderByte p h sl.onBreak with crc := 0 } :=
  rxHeaderCrc_data (headed_good laws h sl) (by simpa [rxHeaderByte] using own) data

theorem headed_ignored (laws : CrcLaws p) (own : headerAddr h = sl.ownAddr) (data : headerClass h ≠ Config.cmdClass)
    (kind : sl.dev.kind (headerClass h) = .ignore) : sl.headed p h (headerCrc p h) = sl.declined h := by
  rw [headed_data laws own data, classifyHeader_ignore (by simpa [rxHeaderByte] using kind)]
  rfl

theorem declined_deaf (h : Byte) (sl : Slave) : (sl.declined h).Deaf := ⟨rfl, onBreak_txEn sl⟩

/-! ## A write (44 R267, R269, R275) -/

/-- A slave that has taken these bytes of a write. -/
def Slave.receiving (p : Params) (h : Byte) (st : SlaveState) (got : List Byte) (sl : Slave) : Slave :=
  { sl.onBreak with
    st := st, hdr := h, crc := crc8Over p got Config.seed, idx := 1, msgClass := headerClass h
    dev := { sl.onBreak.dev with
      pos := got.length
      calls := (got.map Call.storeByte).reverse ++ .initTransfer (headerClass h) :: sl.onBreak.dev.calls } }

theorem receiving_silent (st : SlaveState) (got : List Byte) : (sl.receiving p h st got).txEn = false := onBreak_txEn sl

theorem headed_receiving (laws : CrcLaws p) (own : headerAddr h = sl.ownAddr) (data : headerClass h ≠ Config.cmdClass)
    {more : Nat} (kind : sl.dev.kind (headerClass h) = .receive more) :
    sl.headed p h (headerCrc p h) = sl.receiving p h .rxMsg [] := by
  rw [headed_data laws own data, classifyHeader_receive (n := more) (by simpa [rxHeaderByte] using kind)]
  rfl

theorem receiving_byte {more : Nat} (kind : sl.dev.kind (headerClass h) = .receive more) (got : List Byte) (b : Byte)
    (f : Free) :
    onRx p b (sl.receiving p h .rxMsg got) f =
      ⟨sl.receiving p h (if got.length < more then .rxMsg else .checkRxCrc) (got ++ [b]), f, none⟩ := by
  have slot : (sl.receiving p h .rxMsg got).dev.kind (sl.receiving p h .rxMsg got).msgClass = .receive more :=
    (onBreak_kind sl _).trans kind
  rw [onRx_rxMsg rfl, rxPayload_receive slot]
  simp [Slave.receiving, Reaction.quiet, crc8Over_append, crc8Over]

/-- The payload up to its last byte. -/
theorem takes_payload {more : Nat} (kind : sl.dev.kind (headerClass h) = .receive more) (f : Free) :
    ∀ (rest got : List Byte), rest ≠ [] → got.length + rest.length = more + 1 →
      Takes p rest (sl.receiving p h .rxMsg got) f (sl.receiving p h .checkRxCrc (got ++ rest)) f
  | [], _, some_, _ => absurd rfl some_
  | b :: rest, got, _, length => by
    have hears := receiving_byte (p := p) kind got b f
    cases rest with
    | nil =>
      rw [if_neg (by simp at length; omega)] at hears
      exact .one (receiving_silent _ _) hears
    | cons c rest =>
      rw [if_pos (by simp at length; omega)] at hears
      have tail := takes_payload kind f (c :: rest) (got ++ [b]) nofun (by simp at length ⊢; omega)
      rw [List.append_assoc, List.singleton_append] at tail
      exact .byte (receiving_silent _ _) hears tail

/-- A write whose CRC byte is good leads to the acknowledge. -/
theorem takes_write (laws : CrcLaws p) (own : headerAddr h = sl.ownAddr) (data : headerClass h ≠ Config.cmdClass)
    {more : Nat} (kind : sl.dev.kind (headerClass h) = .receive more) {payload : List Byte}
    (length : payload.length = more + 1) (f : Free) :
    ∃ y : Slave, Takes p (payload ++ [payloadCrc p payload]) (sl.headed p h (headerCrc p h)) f y f ∧
      Sends p [0x55] y f (sl.stored h payload) f := by
  have body := takes_payload (p := p) kind f payload [] (by rintro rfl; simp at length) (by simpa using length)
  have good : crc8 p (sl.receiving p h .checkRxCrc payload).crc (payloadCrc p payload) = 0 := crc8_self laws _
  have last := (onRx_checkRxCrc (f := f) rfl).trans (congrArg (Reaction.quiet · f) (rxPayloadCrc_good good))
  rw [headed_receiving laws own data kind]
  refine ⟨_, body.append (.one (receiving_silent _ _) last), .one rfl ((onTxe_txAck rfl).trans ?_) (ignores_of_st (.inl rfl))⟩
  rfl

/-- A write whose CRC byte is bad is dropped. -/
theorem takes_spoiled (laws : CrcLaws p) (own : headerAddr h = sl.ownAddr) (data : headerClass h ≠ Config.cmdClass)
    {more : Nat} (kind : sl.dev.kind (headerClass h) = .receive more) {payload : List Byte} {b : Byte}
    (length : payload.length = more + 1) (bad : payloadOk p (payload ++ [b]) = false) (f : Free) :
    Takes p (payload ++ [b]) (sl.headed p h (headerCrc p h)) f (sl.spoiled p h (payload ++ [b])) f := by
  have body := takes_payload (p := p) kind f payload [] (by rintro rfl; simp at length) (by simpa using length)
  have wrong : crc8 p (sl.receiving p h .checkRxCrc payload).crc b ≠ 0 := by
    rw [← Bool.not_eq_true, payloadOk_iff, crc8Over_concat] at bad
    exact bad
  have last : onRx p b (sl.receiving p h .checkRxCrc payload) f = ⟨sl.spoiled p h (payload ++ [b]), f, none⟩ := by
    rw [onRx_checkRxCrc rfl, rxPayloadCrc_bad wrong]
    simp [Slave.receiving, Slave.spoiled, Reaction.quiet, crc8Over_append, crc8Over]
  rw [headed_receiving laws own data kind]
  exact body.append (.one (receiving_silent _ _) last)

theorem spoiled_deaf (heard : List Byte) : (sl.spoiled p h heard).Deaf := ⟨rfl, onBreak_txEn sl⟩
theorem stored_deaf (payload : List Byte) : (sl.stored h payload).Deaf := ⟨rfl, rfl⟩

/-! ## A read (44 R276) -/

/-- A slave that has sent these bytes of its slot. -/
def Slave.sending (p : Params) (h : Byte) (sent : List Byte) (sl : Slave) : Slave :=
  { sl.onBreak with
    st := .txMsg, hdr := h, crc := crc8Over p sent Config.seed, idx := 1, msgClass := headerClass h, txEn := true
    dev := { sl.onBreak.dev with
      pos := sent.length
      calls := (sent.map fun b => Call.fetchByte (some b)).reverse ++ .enableTransmitEmptySignal true ::
        .initTransfer (headerClass h) :: sl.onBreak.dev.calls } }

theorem headed_sending (laws : CrcLaws p) (own : headerAddr h = sl.ownAddr) (data : headerClass h ≠ Config.cmdClass)
    {n : Nat} (kind : sl.dev.kind (headerClass h) = .transmit n) :
    sl.headed p h (headerCrc p h) = sl.sending p h [] := by
  rw [headed_data laws own data, classifyHeader_transmit (n := n) (by simpa [rxHeaderByte] using kind)]
  rfl

theorem sending_kind {n : Nat} (kind : sl.dev.kind (headerClass h) = .transmit n) (sent : List Byte) :
    (sl.sending p h sent).dev.kind (sl.sending p h sent).msgClass = .transmit n := (onBreak_kind sl _).trans kind

/-- The bytes of the slot. -/
theorem sends_bytes {n : Nat} (kind : sl.dev.kind (headerClass h) = .transmit n) : ∀ (m : Nat) (sent : List Byte) (f : Free),
    sent.length + m = n →
      Sends p (Free.drawList m f).1 (sl.sending p h sent) f (sl.sending p h (sent ++ (Free.drawList m f).1))
        (Free.drawList m f).2
  | 0, sent, f, _ => by rw [Free.drawList, List.append_nil]; exact .done _ _
  | m + 1, sent, f, length => by
    have sends : onTxe p (sl.sending p h sent) f = ⟨sl.sending p h (sent ++ [f.draw.1]), f.draw.2, some f.draw.1⟩ := by
      rw [onTxe_txMsg_byte rfl (sending_kind kind sent) (by simp only [Slave.sending]; omega)]
      simp [Slave.sending, crc8Over_append, crc8Over]
    have rest := sends_bytes kind m (sent ++ [f.draw.1]) f.draw.2 (by simp; omega)
    rw [List.append_assoc, List.singleton_append] at rest
    exact .byte rfl sends (ignores_of_st (.inr (.inl rfl))) rest

/-- The reply: the bytes of the slot and their CRC. -/
theorem sends_read (laws : CrcLaws p) (own : headerAddr h = sl.ownAddr) (data : headerClass h ≠ Config.cmdClass)
    {n : Nat} (kind : sl.dev.kind (headerClass h) = .transmit n) {reply : List Byte} {f g : Free}
    (drawn : Free.drawList n f = (reply, g)) :
    Sends p (reply ++ [payloadCrc p reply]) (sl.headed p h (headerCrc p h)) f (sl.replied p h reply) g := by
  have body := sends_bytes (p := p) kind n [] f (by simp)
  have length : reply.length = n := by rw [← drawList_length n f, drawn]
  rw [drawn] at body
  have last : onTxe p (sl.sending p h reply) g = ⟨sl.replied p h reply, g, some (payloadCrc p reply)⟩ := by
    rw [onTxe_txMsg_crc rfl (sending_kind kind reply) (by simp only [Slave.sending]; omega)]
    rfl
  rw [headed_sending laws own data kind]
  exact body.append (.one rfl last (ignores_of_st (.inl rfl)))

theorem replied_deaf (reply : List Byte) : (sl.replied p h reply).Deaf := ⟨rfl, rfl⟩

/-! ## A command request (44 R268) -/

/-- A slave that has taken the five request bytes of a command. -/
def Slave.commanded (p : Params) (h : Byte) (request : Vector Byte 5) (sl : Slave) : Slave :=
  { sl.onBreak with
    st := .checkRxCtrlCrc, hdr := h, crc := payloadCrc p request.toList, idx := 5, len := 5, ctrlReq := request }

theorem headed_command (laws : CrcLaws p) (own : headerAddr h = sl.ownAddr) (cmd : headerClass h = Config.cmdClass) :
    sl.headed p h (headerCrc p h) =
      { sl.onBreak with st := .rxCtrlMsg, hdr := h, crc := Config.seed, idx := 0, len := 5 } :=
  rxHeaderCrc_command (headed_good laws h sl) (by simpa [rxHeaderByte] using own) cmd

theorem vector_set_five {v w : Vector Byte 5} : ((((v.set 0 w[0]).set 1 w[1]).set 2 w[2]).set 3 w[3]).set 4 w[4] = w := by
  refine Vector.ext fun i low => ?_
  have cases5 : i = 0 ∨ i = 1 ∨ i = 2 ∨ i = 3 ∨ i = 4 := by omega
  obtain rfl | rfl | rfl | rfl | rfl := cases5 <;> simp

theorem vector_toList_five (w : Vector Byte 5) : w.toList = [w[0], w[1], w[2], w[3], w[4]] := by
  conv_lhs => rw [vector_five w]
  rfl

/-- A request byte, the last one or not. -/
theorem rxCtrl_byte {x : Slave} {n : Nat} (st : x.st = .rxCtrlMsg) (place : x.idx = BitVec.ofNat 8 n) (low : n < 5)
    (b : Byte) (f : Free) :
    onRx p b x f = ⟨{ x with
      st := if n = 4 then .checkRxCtrlCrc else .rxCtrlMsg
      crc := crc8 p x.crc b, ctrlReq := x.ctrlReq.set n b low, idx := BitVec.ofNat 8 (n + 1) }, f, none⟩ := by
  have toNat : x.idx.toNat = n := by rw [place, BitVec.toNat_ofNat, Nat.mod_eq_of_lt (by omega)]
  have next : x.idx + 1 = BitVec.ofNat 8 (n + 1) := by rw [place]; bv_omega
  have last : x.idx = 4 ↔ n = 4 := by
    constructor
    · intro four; rw [four] at toNat; exact toNat.symm
    · rintro rfl; exact place
  have inRange : x.idx.toNat < 5 := toNat ▸ low
  rw [onRx_rxCtrlMsg st, rxRequest_eq inRange, st]
  simp only [next, last, toNat]
  rfl

theorem listens_request (laws : CrcLaws p) (own : headerAddr h = sl.ownAddr) (cmd : headerClass h = Config.cmdClass)
    (request : Vector Byte 5) :
    Listens p request.toList (sl.headed p h (headerCrc p h)) (sl.commanded p h request) := by
  have silent := onBreak_txEn sl
  have whole := vector_set_five (v := sl.onBreak.ctrlReq) (w := request)
  rw [headed_command laws own cmd, Slave.commanded, payloadCrc, vector_toList_five request]
  refine .byte silent (rxCtrl_byte (n := 0) rfl rfl (by decide) _) ?_
  refine .byte silent (rxCtrl_byte (n := 1) rfl rfl (by decide) _) ?_
  refine .byte silent (rxCtrl_byte (n := 2) rfl rfl (by decide) _) ?_
  refine .byte silent (rxCtrl_byte (n := 3) rfl rfl (by decide) _) ?_
  refine .byte silent (fun f => (rxCtrl_byte (n := 4) rfl rfl (by decide) _ f).trans ?_) (.done _)
  exact congrArg (fun v => (⟨{ sl.onBreak with
    st := .checkRxCtrlCrc, hdr := h, crc := crc8Over p [request[0], request[1], request[2], request[3], request[4]] Config.seed
    idx := 5, len := 5, ctrlReq := v }, f, none⟩ : Reaction)) whole

theorem takes_request (laws : CrcLaws p) (own : headerAddr h = sl.ownAddr) (cmd : headerClass h = Config.cmdClass)
    (request : Vector Byte 5) (f : Free) :
    Takes p request.toList (sl.headed p h (headerCrc p h)) f (sl.commanded p h request) f :=
  (listens_request laws own cmd request).takes f

theorem commanded_silent (request : Vector Byte 5) : (sl.commanded p h request).txEn = false := onBreak_txEn sl

theorem commanded_good (laws : CrcLaws p) (request : Vector Byte 5) :
    crc8 p (sl.commanded p h request).crc (payloadCrc p request.toList) = 0 := crc8_self laws _

/-! ## A response (44 R277) -/

/-- A slave that has sent `j` bytes of its response. -/
def Slave.responding (p : Params) (resp : Vector Byte 5) (j : Nat) (sl : Slave) : Slave :=
  { sl with
    st := .txCtrlResp, crc := crc8Over p (resp.toList.take j) Config.seed, idx := BitVec.ofNat 8 j, ctrlResp := resp
    txEn := true }

theorem replies_response_bytes (resp : Vector Byte 5) (x : Slave) : ∀ (m j : Nat), j + m = 5 →
    Replies p (resp.toList.drop j) (x.responding p resp j) (x.responding p resp 5)
  | 0, j, five => by
    obtain rfl : j = 5 := by omega
    rw [List.drop_eq_nil_of_le (by simp)]
    exact .done _
  | m + 1, j, five => by
    have low : j < 5 := by omega
    have place : (x.responding p resp j).idx.toNat = j := by
      rw [Slave.responding, BitVec.toNat_ofNat, Nat.mod_eq_of_lt (by omega)]
    have next : BitVec.ofNat 8 j + 1 = BitVec.ofNat 8 (j + 1) := by bv_omega
    have byte : resp.toList.drop j = resp[j] :: resp.toList.drop (j + 1) := by
      rw [List.drop_eq_getElem_cons (by simpa using low)]; simp
    have taken : resp.toList.take (j + 1) = resp.toList.take j ++ [resp[j]] := by
      rw [List.take_succ_eq_append_getElem (by simpa using low)]; simp
    have sends (f : Free) : onTxe p (x.responding p resp j) f = ⟨x.responding p resp (j + 1), f, some resp[j]⟩ := by
      have inRange : (x.responding p resp j).idx.toNat < 5 := by rw [place]; exact low
      rw [onTxe_txCtrlResp_byte rfl inRange]
      simp only [place]
      simp only [Slave.responding, next, taken, crc8Over_concat]
    rw [byte]
    exact .byte rfl sends (ignores_of_st (.inr (.inr rfl))) (replies_response_bytes resp x m (j + 1) (by omega))

/-- The response and its CRC. -/
theorem replies_response (resp : Vector Byte 5) (x : Slave) :
    Replies p (resp.toList ++ [payloadCrc p resp.toList]) (x.responding p resp 0)
      { x with
        st := .waitBreak, crc := payloadCrc p resp.toList, idx := 5, ctrlResp := resp, txEn := false
        dev := { x.dev with calls := .enableTransmitEmptySignal false :: x.dev.calls } } := by
  have body := replies_response_bytes (p := p) resp x 5 0 rfl
  have last (f : Free) := onTxe_txCtrlResp_crc (p := p) (sl := x.responding p resp 5) (f := f) rfl (Nat.le_refl 5)
  have all : resp.toList.take 5 = resp.toList := List.take_of_length_le (by simp)
  rw [Slave.responding] at last
  simp only [all] at last
  refine body.append (.byte rfl (fun f => ?_) (ignores_of_st (.inl rfl)) (.done _))
  rw [Slave.responding]
  simp only [all]
  exact last f

/-- A slave told to answer is about to send its response. -/
theorem replies_answer (resp : Vector Byte 5) (x : Slave) :
    Replies p (resp.toList ++ [payloadCrc p resp.toList]) (answerWith resp x)
      { x with
        st := .waitBreak, crc := payloadCrc p resp.toList, idx := 5, ctrlResp := resp, txEn := false
        dev := { x.dev with
          calls := .enableTransmitEmptySignal false :: .enableTransmitEmptySignal true :: x.dev.calls } } :=
  replies_response resp { x with dev := x.dev.note (.enableTransmitEmptySignal true) }

theorem onBreak_identity (sl : Slave) :
    sl.onBreak.devType = sl.devType ∧ sl.onBreak.fwVer = sl.fwVer ∧ sl.onBreak.hwRev = sl.hwRev := by
  unfold Slave.onBreak
  split <;> exact ⟨rfl, rfl, rfl⟩

/-! ## PROBE, INQUIRE and the reserved sub-commands, from the CRC byte of the request on (44 R270 to R274) -/

/-- The CRC byte of a PROBE request: the slave is about to answer with five free bytes. -/
theorem commanded_probe (laws : CrcLaws p) {request : Vector Byte 5} (sub : request[0] = Config.subProbe) {f g : Free}
    {filler : List Byte} (drawn : Free.drawList 5 f = (filler, g)) :
    onRx p (payloadCrc p request.toList) (sl.commanded p h request) f =
      ⟨answerWith (fiveOf filler) { sl.commanded p h request with crc := 0 }, g, none⟩ := by
  have last := (onRx_checkRxCtrlCrc (f := f) rfl).trans
    (rxRequestCrc_probe (sl := sl.commanded p h request) (commanded_good laws request) sub)
  rw [drawn] at last
  exact last

theorem replies_probe (request : Vector Byte 5) (resp : Vector Byte 5) :
    Replies p (resp.toList ++ [payloadCrc p resp.toList]) (answerWith resp { sl.commanded p h request with crc := 0 })
      (sl.responded p h request resp []) :=
  replies_answer resp { sl.commanded p h request with crc := 0 }

theorem takes_probe (laws : CrcLaws p) (own : headerAddr h = sl.ownAddr) (cmd : headerClass h = Config.cmdClass)
    {request : Vector Byte 5} (sub : request[0] = Config.subProbe) {f g : Free} {filler : List Byte}
    (drawn : Free.drawList 5 f = (filler, g)) :
    ∃ y : Slave, Takes p (request.toList ++ [payloadCrc p request.toList]) (sl.headed p h (headerCrc p h)) f y g ∧
      Sends p ((fiveOf filler).toList ++ [payloadCrc p (fiveOf filler).toList]) y g
        (sl.responded p h request (fiveOf filler) []) g :=
  ⟨_, (takes_request laws own cmd request f).append (.one (commanded_silent request) (commanded_probe laws sub drawn)),
    (replies_probe request (fiveOf filler)).sends g⟩

theorem takes_inquire (laws : CrcLaws p) (own : headerAddr h = sl.ownAddr) (cmd : headerClass h = Config.cmdClass)
    {request : Vector Byte 5} (sub : request[0] = Config.subInquire) (f : Free) {resp : Vector Byte 5}
    (answer : resp = encodeInquire sl.devType sl.fwVer sl.hwRev (f.draw.1.getLsbD 0)) :
    ∃ y : Slave, Takes p (request.toList ++ [payloadCrc p request.toList]) (sl.headed p h (headerCrc p h)) f y f.draw.2 ∧
      Sends p (resp.toList ++ [payloadCrc p resp.toList]) y f.draw.2
        (sl.responded p h request resp [.readIndicator (f.draw.1.getLsbD 0)]) f.draw.2 := by
  have last := (onRx_checkRxCtrlCrc (f := f) rfl).trans
    (rxRequestCrc_inquire (sl := sl.commanded p h request) (commanded_good laws request) sub)
  obtain ⟨devType, fwVer, hwRev⟩ := onBreak_identity sl
  have same : encodeInquire (sl.commanded p h request).devType (sl.commanded p h request).fwVer
      (sl.commanded p h request).hwRev (f.draw.1.getLsbD 0) = resp := by
    rw [answer, ← devType, ← fwVer, ← hwRev]
    rfl
  rw [same] at last
  exact ⟨_, (takes_request laws own cmd request f).append (.one (commanded_silent request) last),
    (replies_answer resp
      ({ sl.commanded p h request with crc := 0 }.note (.readIndicator (f.draw.1.getLsbD 0)))).sends f.draw.2⟩

theorem takes_reserved (laws : CrcLaws p) (own : headerAddr h = sl.ownAddr) (cmd : headerClass h = Config.cmdClass)
    {request : Vector Byte 5} (sub : (3 : Byte) ≤ request[0]) (f : Free) :
    Takes p (request.toList ++ [payloadCrc p request.toList]) (sl.headed p h (headerCrc p h)) f (sl.requested h request) f :=
  (takes_request laws own cmd request f).append (.one (commanded_silent request)
    ((onRx_checkRxCtrlCrc rfl).trans (rxRequestCrc_reserved (commanded_good laws request) sub)))

theorem responded_deaf (request resp : Vector Byte 5) (calls : List Call) :
    (sl.responded p h request resp calls).Deaf := ⟨rfl, rfl⟩

theorem requested_deaf (request : Vector Byte 5) : (sl.requested h request).Deaf := ⟨rfl, onBreak_txEn sl⟩

end

end Sys2Proof.Machine
end

section
/-! SUPPORT. The wire instructions on an undisturbed bus (30 R114; 44 R262 to R277). -/

namespace Sys2Proof.Machine

/-- A data frame carries a data class, and is put on the wire as it is. -/
theorem exec_dataInstr {c : MsgClass} {i : Instr} {a : Addr} {hc : Byte} {body : List Byte}
    (member : (c, i) ∈ dataInstrs a hc body) (s : State) :
    c ≠ Config.cmdClass ∧ exec i s = .next (frameOnWire (makeHeader c a :: hc :: body) s) := by
  simp only [dataInstrs, List.mem_cons, Prod.mk.injEq, List.not_mem_nil, or_false] at member
  obtain ⟨rfl, rfl⟩ | ⟨rfl, rfl⟩ | ⟨rfl, rfl⟩ | ⟨rfl, rfl⟩ | ⟨rfl, rfl⟩ | ⟨rfl, rfl⟩ | ⟨rfl, rfl⟩ := member <;>
    exact ⟨by decide, rfl⟩

theorem command_header (a : Addr) :
    headerAddr (makeHeader 7 a) = a ∧ headerClass (makeHeader 7 a) = Config.cmdClass :=
  ⟨headerAddr_makeHeader 7 a, headerClass_makeHeader 7 a⟩

theorem data_header {c : MsgClass} (a : Addr) {sl : Slave} {kind : SlotKind} (data : c ≠ Config.cmdClass)
    (slot : sl.dev.kind c = kind) :
    headerClass (makeHeader c a) ≠ Config.cmdClass ∧ sl.dev.kind (headerClass (makeHeader c a)) = kind := by
  rw [headerClass_makeHeader]
  exact ⟨data, slot⟩

theorem addressed_own {s : State} {k : Nat} {sl : Slave} {a : Addr} (addressed : s.Addressed k sl a) :
    a = sl.ownAddr ∧ CrcLaws s.params := by
  obtain ⟨-, own, -, -, laws⟩ := addressed
  exact ⟨own.symm, laws⟩

theorem notBefore_none (n : Nat) : NotBefore none n := fun _ member => absurd member nofun

theorem timeFor_zero (s : State) : s.TimeFor 0 := by simp [State.TimeFor]

/-- A wire frame is put on the wire as it is encoded. -/
theorem exec_wire {i : Instr} {frame : List Byte} (encoded : encode i = ⟨.wire, frame⟩) (s : State) :
    exec i s = .next (frameOnWire frame s) := by
  cases i <;> cases encoded <;> rfl

/-- Settles O26: a conversation in which every slave discards the header. -/
theorem foreignFrameIsDiscarded : Obligations.ForeignFrameIsDiscarded := by
  intro s i h c rest encoded clean laws foreign
  rw [exec_wire encoded, frameOnWire, conversation_nobody rest none clean laws foreign]

/-- Settles O27: the conversation with a slave that takes the header and no more. -/
theorem ignoredClassIsDeclined : Obligations.IgnoredClassIsDeclined := by
  rintro s k sl a c i h hc body rfl rfl member addressed kind
  obtain ⟨data, run⟩ := exec_dataInstr member s
  have address := headerAddr_makeHeader c a
  obtain ⟨data, kind⟩ := data_header a data kind
  obtain ⟨own, laws⟩ := addressed_own addressed
  have headed := headed_ignored laws (sl := sl) (address.trans own) data kind
  rw [run, frameOnWire, conversation_clean addressed address
    (by rw [headed]; exact takes_deaf s.params (declined_deaf _ sl) s.freeAfterEcho body) (.done _ _) (declined_deaf _ sl)
    (notBefore_none _) (timeFor_zero s), List.append_nil]

/-- Settles O28: the conversation with a slave that takes the payload and sends the acknowledge. -/
theorem writeIsStoredAndAcknowledged : Obligations.WriteIsStoredAndAcknowledged := by
  rintro s k sl a c i h hc payload more rfl rfl member addressed kind length inTime
  obtain ⟨data, run⟩ := exec_dataInstr member s
  have address := headerAddr_makeHeader c a
  obtain ⟨data, kind⟩ := data_header a data kind
  obtain ⟨own, laws⟩ := addressed_own addressed
  obtain ⟨y, takes, sends⟩ := takes_write laws (sl := sl) (address.trans own) data kind length
    s.freeAfterEcho
  rw [run, frameOnWire, conversation_clean addressed address takes sends (stored_deaf payload) (notBefore_none _) inTime]
  rfl

/-- Settles O29: the conversation with a slave that sends its device's bytes. -/
theorem readIsAnswered : Obligations.ReadIsAnswered := by
  rintro s k sl a c i h hc n reply free rfl rfl member addressed kind inTime drawn
  obtain ⟨data, run⟩ := exec_dataInstr member s
  have address := headerAddr_makeHeader c a
  obtain ⟨data, kind⟩ := data_header a data kind
  obtain ⟨own, laws⟩ := addressed_own addressed
  have length : reply.length = n := by rw [← drawList_length n s.freeAfterEcho, drawn]
  have sends := sends_read laws (sl := sl) (address.trans own) data kind drawn
  rw [run, frameOnWire, conversation_clean addressed address (.done _ _) sends (replied_deaf reply) (notBefore_none _)
    (by simpa [length] using inTime)]
  rfl

/-- A command frame on the wire: header pair, the request, its CRC byte. -/
theorem commandFrame_eq (a : Addr) (hc sub crc : Byte) (args : Vector Byte 4) (s : State) :
    commandFrame a hc sub args.toList crc s =
      frameOnWire (makeHeader 7 a :: hc :: ((#v[sub, args[0], args[1], args[2], args[3]]).toList ++ [crc])) s := by
  have list : args.toList = [args[0], args[1], args[2], args[3]] := by
    conv_lhs => rw [vector_four args]
    rfl
  rw [commandFrame, list]
  rfl

theorem exec_cmdProbe (a : Addr) (hc crc : Byte) (args : Vector Byte 4) (s : State) :
    exec (.cmdProbe a hc args crc) s =
      .next (frameOnWire (makeHeader 7 a :: hc :: ((#v[0, args[0], args[1], args[2], args[3]] : Vector Byte 5).toList ++ [crc])) s) :=
  congrArg Host.Outcome.next (commandFrame_eq a hc 0 crc args s)

theorem exec_cmdInquire (a : Addr) (hc crc : Byte) (args : Vector Byte 4) (s : State) :
    exec (.cmdInquire a hc args crc) s =
      .next (frameOnWire (makeHeader 7 a :: hc :: ((#v[2, args[0], args[1], args[2], args[3]] : Vector Byte 5).toList ++ [crc])) s) :=
  congrArg Host.Outcome.next (commandFrame_eq a hc 2 crc args s)

theorem exec_cmdReserved (a : Addr) (hc sub crc : Byte) (args : Vector Byte 4) (s : State) :
    exec (.cmdReserved a hc sub args crc) s =
      .next (frameOnWire (makeHeader 7 a :: hc :: ((#v[sub, args[0], args[1], args[2], args[3]]).toList ++ [crc])) s) :=
  congrArg Host.Outcome.next (commandFrame_eq a hc sub crc args s)

theorem fiveOf_drawn {f g : Free} {filler : List Byte} (drawn : Free.drawList 5 f = (filler, g)) :
    (fiveOf filler).toList = filler ∧ filler.length = 5 := by
  have length : filler.length = 5 := by rw [← drawList_length 5 f, drawn]
  exact ⟨by rw [fiveOf_toList (by omega), ← length, List.take_length], length⟩

/-- Settles O30: the conversations with a slave that takes the request, and replies. -/
theorem commandsAreAnswered : Obligations.CommandsAreAnswered := by
  rintro s k sl a h hc sub args request rfl rfl addressed inTime rfl
  obtain ⟨address, cmd⟩ := command_header a
  obtain ⟨own, laws⟩ := addressed_own addressed
  have addr := address.trans own
  refine ⟨?_, ?_, fun reserved => ?_⟩
  · rintro rfl filler free drawn
    obtain ⟨five, length⟩ := fiveOf_drawn drawn
    obtain ⟨y, takes, sends⟩ := takes_probe laws (sl := sl) addr cmd (request := #v[0, args[0], args[1], args[2], args[3]])
      rfl drawn
    rw [five] at sends
    rw [exec_cmdProbe, frameOnWire, conversation_clean addressed address takes sends (responded_deaf _ _ _)
      (notBefore_none _) (by simpa [length] using inTime), ← List.append_assoc]
    rfl
  · rintro rfl draw free resp drawn answer
    obtain ⟨rfl, rfl⟩ : draw = s.freeAfterEcho.draw.1 ∧ free = s.freeAfterEcho.draw.2 := by rw [drawn]; exact ⟨rfl, rfl⟩
    obtain ⟨y, takes, sends⟩ := takes_inquire laws (sl := sl) addr cmd
      (request := #v[2, args[0], args[1], args[2], args[3]]) rfl s.freeAfterEcho answer
    rw [exec_cmdInquire, frameOnWire, conversation_clean addressed address takes sends (responded_deaf _ _ _)
      (notBefore_none _) (by simpa using inTime), ← List.append_assoc]
    rfl
  · have takes := takes_reserved laws (sl := sl) addr cmd (request := #v[sub, args[0], args[1], args[2], args[3]])
      reserved s.freeAfterEcho
    rw [exec_cmdReserved, frameOnWire, conversation_clean addressed address takes (.done _ _) (requested_deaf _)
      (notBefore_none _) (timeFor_zero s), List.append_nil]
    rfl

end Sys2Proof.Machine
end

section
/-! SUPPORT. A renumber of one slave (45 R321 to R326): the backoff tick by tick, then the confirmation byte by byte, each
heard by the slave itself. -/

namespace Sys2Proof.Machine

/-! ## The backoff (45 R322, R324) -/

/-- A slave that waits for its backoff to end, with this much of it left. -/
def Slave.backingOff (timer : Word16) (sl : Slave) : Slave := { sl with st := .waitRenumTimer, renumTimer := timer }

/-- A slave that has handed `j` bytes of its confirmation to its transmitter, this one the last. -/
def Slave.confirming (p : Params) (j : Nat) (last : Byte) (sl : Slave) : Slave :=
  { sl with
    st := .txRenumConf, renumTimer := 0, crc := crc8Over p (sl.ctrlResp.toList.take j) Config.seed, lastTx := last
    idx := BitVec.ofNat 8 j }

theorem onTick_starts {p : Params} {timer : Word16} (x : Slave) (f : Free) (elapsed : timer.toNat ≤ p.tickUs) :
    onTick p (x.backingOff timer) f = ⟨x.confirming p 1 x.ctrlResp[0], f, some x.ctrlResp[0]⟩ := by
  have first : x.ctrlResp.toList.take 1 = [x.ctrlResp[0]] := by rw [vector_toList_five]; rfl
  rw [onTick_elapsed rfl elapsed, Slave.confirming, first]
  rfl

section
variable {s : State} {l : List Slave} {k : Nat}

theorem talking_cost_tick (deaf : DeafBut l k) {x : Slave} {f : Free} {heard : List Byte} {noise : List Noise}
    (silent : x.txEn = false) : turnCost (s.talking l k x f heard noise none) = tickTimeUs s.params := by
  have any : (s.talking l k x f heard noise none).slaves.any (·.txEn) = false := by
    rw [List.any_eq_false]
    intro y member
    obtain ⟨j, at_j⟩ := List.mem_iff_getElem?.1 member
    by_cases here : j = k
    · rw [here, talking_at deaf.1] at at_j
      rw [← Option.some.inj at_j, silent]
      decide
    · rw [(talking_other deaf at_j here).2]
      decide
  simp only [turnCost, any, Bool.or_false]
  rfl

theorem tickTimeUs_eq {p : Params} (ticking : 0 < p.tickUs) : tickTimeUs p = p.tickUs := Nat.max_eq_right ticking

/-- One tick of the backoff, whatever it leads to. -/
theorem talking_backoff_turn (deaf : DeafBut l k) (ticking : 0 < s.params.tickUs) {limit : Option Nat} {x y : Slave}
    {f : Free} {heard : List Byte} {noise : List Noise} (more : NotBefore limit (heard.length + 1)) {timer : Word16}
    (silent : x.txEn = false)
    {fuel time : Nat} {tx : Option Byte} (ticks : onTick s.params (x.backingOff timer) f = ⟨y, f, tx⟩)
    (inTime : s.params.tickUs ≤ time) (fuelled : time ≤ fuel) :
    await limit fuel time (s.talking l k (x.backingOff timer) f heard noise none) =
      await limit (fuel - 1) (time - s.params.tickUs) (s.talking l k y f heard noise tx) := by
  have cost := talking_cost_tick (s := s) (f := f) (heard := heard) (noise := noise) deaf (x := x.backingOff timer) silent
  have idle : (x.backingOff timer).txEn = false := silent
  rw [tickTimeUs_eq ticking] at cost
  rw [await_turn (enough_eq_false more (Nat.lt_succ_self heard.length)) (talking_moves deaf (.inr rfl)) (cost ▸ inTime)
    (by omega), cost, talking_busTurn, talking_slot_tick deaf idle ticks]

/-- The backoff ends within its length and a tick, and the confirmation starts. -/
theorem talking_backoff (deaf : DeafBut l k) (ticking : 0 < s.params.tickUs) {limit : Option Nat} (x : Slave) (f : Free)
    (heard : List Byte) (noise : List Noise) (more : NotBefore limit (heard.length + 1)) (silent : x.txEn = false)
    (timer : Word16) (fuel time : Nat)
    (inTime : timer.toNat + s.params.tickUs ≤ time) (fuelled : time ≤ fuel) :
    ∃ fuel' time' : Nat, time' ≤ fuel' ∧ time ≤ time' + (timer.toNat + s.params.tickUs) ∧
      await limit fuel time (s.talking l k (x.backingOff timer) f heard noise none) =
        await limit fuel' time' (s.talking l k (x.confirming s.params 1 x.ctrlResp[0]) f heard noise (some x.ctrlResp[0])) := by
  by_cases running : s.params.tickUs < timer.toNat
  · have left := timer_after_tick timer s.params.tickUs
    have ticks : onTick s.params (x.backingOff timer) f =
        ⟨x.backingOff (BitVec.ofNat 16 (timer.toNat - s.params.tickUs)), f, none⟩ := onTick_running rfl running
    obtain ⟨fuel', time', fuelled', bound, rest⟩ := talking_backoff deaf ticking x f heard noise more silent
      (BitVec.ofNat 16 (timer.toNat - s.params.tickUs)) (fuel - 1) (time - s.params.tickUs) (by omega) (by omega)
    exact ⟨fuel', time', fuelled', by omega,
      (talking_backoff_turn deaf ticking more silent ticks (by omega) fuelled).trans rest⟩
  · have ticks := onTick_starts x f (Nat.not_lt.1 running)
    exact ⟨fuel - 1, time - s.params.tickUs, by omega, by omega,
      talking_backoff_turn deaf ticking more silent ticks (by omega) fuelled⟩
termination_by timer.toNat
decreasing_by omega

/-! ## The confirmation (45 R325, R326) -/

/-- A slave that hears the byte in its own transmitter, and hands over the next, to the last of these. -/
inductive Confirms (p : Params) : Byte → List Byte → Slave → Free → Slave → Free → Prop where
  | last {b : Byte} {x y : Slave} {f g : Free} : x.txEn = false → onRx p b x f = ⟨y, g, none⟩ → Confirms p b [] x f y g
  | next {b c : Byte} {bs : List Byte} {x y z : Slave} {f g e : Free} : x.txEn = false →
      onRx p b x f = ⟨y, g, some c⟩ → Confirms p c bs y g z e → Confirms p b (c :: bs) x f z e

theorem talking_cost_held {x : Slave} {f : Free} {heard : List Byte} {noise : List Noise} {b : Byte} :
    turnCost (s.talking l k x f heard noise (some b)) = charTimeUs s.params := by
  have held : (s.talking l k x f heard noise (some b)).bus.inFlight.isEmpty = false := rfl
  have params : (s.talking l k x f heard noise (some b)).params = s.params := rfl
  rw [turnCost, held, params, Bool.not_false, Bool.true_or, if_pos rfl]

/-- One slot of the confirmation. -/
theorem talking_confirm_turn (deaf : DeafBut l k) {limit : Option Nat} {x y : Slave} {f g : Free} {heard : List Byte}
    (more : NotBefore limit (heard.length + 1)) {fuel time : Nat} {b : Byte} {tx : Option Byte} (silent : x.txEn = false)
    (hears : onRx s.params b x f = ⟨y, g, tx⟩) (inTime : charTimeUs s.params ≤ time) (fuelled : time ≤ fuel) :
    await limit fuel time (s.talking l k x f heard [] (some b)) =
      await limit (fuel - 1) (time - charTimeUs s.params) (s.talking l k y g (heard ++ [b]) [] tx) := by
  have char := charTimeUs_pos s.params
  have unflipped : b ^^^ 0 = b := BitVec.xor_zero
  have heardBySlave : onRx s.params (b ^^^ (([] : List Noise).headD .clean).maskAtSlaves) x f = ⟨y, g, tx⟩ := by
    rw [← hears]; exact congrArg (onRx s.params · x f) unflipped
  have slotted := talking_slot_echo (s := s) (heard := heard) deaf b (headD_carries (noise := []) nofun) silent heardBySlave
  have heardByMaster : b ^^^ (([] : List Noise).headD .clean).maskAtMaster = b := unflipped
  have moves : settled (s.talking l k x f heard [] (some b)) = false := rfl
  rw [heardByMaster] at slotted
  rw [await_turn (enough_eq_false more (Nat.lt_succ_self heard.length)) moves (talking_cost_held ▸ inTime) (by omega),
    talking_cost_held, talking_busTurn, slotted]
  rfl

/-- While the master waits the slave confirms, and falls silent. -/
theorem talking_confirmation (deaf : DeafBut l k) {limit : Option Nat} {b : Byte} {bs : List Byte} {x y : Slave}
    {f g : Free} (confirms : Confirms s.params b bs x f y g) (silent : y.Deaf) : ∀ {heard : List Byte} {fuel time : Nat},
      NotBefore limit (heard.length + (bs.length + 1)) → (bs.length + 1) * charTimeUs s.params ≤ time → time ≤ fuel →
      await limit fuel time (s.talking l k x f heard [] (some b)) =
        s.talking l k y g (heard ++ b :: bs) [] none := by
  induction confirms with
  | last idle hears =>
    intro heard fuel time low inTime fuelled
    rw [talking_confirm_turn deaf low idle hears (by simpa using inTime) fuelled,
      await_settled _ _ _ _ (talking_settled deaf silent)]
  | @next b c bs x y z f g e idle hears _ ih =>
    intro heard fuel time low inTime fuelled
    simp only [List.length_cons] at low inTime
    have more : NotBefore limit (heard.length + 1) := fun e he => by have := low e he; omega
    have char := charTimeUs_pos s.params
    rw [Nat.succ_mul] at inTime
    have rest : (bs.length + 1) * charTimeUs s.params ≤ time - charTimeUs s.params := by omega
    have fuelledRest : time - charTimeUs s.params ≤ fuel - 1 := by omega
    have first : charTimeUs s.params ≤ time := by omega
    rw [talking_confirm_turn deaf more idle hears first fuelled,
      ih silent (by simpa [Nat.add_assoc, Nat.add_comm 1] using low) rest fuelledRest, List.append_assoc,
      List.singleton_append]

end

section
variable {p : Params} {h : Byte} {sl : Slave}

/-- A slave that has handed this CRC byte, the last of its confirmation, to its transmitter. -/
def Slave.confirmingCrc (c : Byte) (sl : Slave) : Slave :=
  { sl with st := .txRenumConf, renumTimer := 0, crc := c, lastTx := c, idx := 6 }

/-- A slave that has heard this CRC byte of its confirmation and adopted its target. -/
def Slave.adopted (c : Byte) (sl : Slave) : Slave :=
  { sl with
    st := .waitBreak, ownAddr := sl.renumTarget, eepromAddr := sl.renumTarget, crc := c, idx := 6, renumTimer := 0
    lastTx := c
    dev := { sl.dev with calls := .persistAddress sl.renumTarget :: sl.dev.calls } }

/-- A slave that has adopted its target after the confirmation. -/
def Slave.committed (p : Params) (sl : Slave) : Slave := sl.adopted (payloadCrc p sl.ctrlResp.toList)

theorem onRx_confirming_crc (x : Slave) (b : Byte) (f : Free) :
    onRx p b (x.confirming p 5 b) f =
      ⟨x.confirmingCrc (x.confirming p 5 b).crc, f, some (x.confirming p 5 b).crc⟩ :=
  onRx_confirm_crc (sl := x.confirming p 5 b) rfl rfl rfl

theorem onRx_confirmed (c : Byte) (x : Slave) (f : Free) :
    onRx p c (x.confirmingCrc c) f = ⟨x.adopted c, f, none⟩ :=
  onRx_confirm_commit (sl := x.confirmingCrc c) rfl rfl rfl

/-- The rest of the confirmation. -/
theorem confirms_from (x : Slave) (silent : x.txEn = false) (f : Free) : ∀ (m j : Nat) (b : Byte), j + m = 5 →
    Confirms p b (x.ctrlResp.toList.drop j ++ [payloadCrc p x.ctrlResp.toList]) (x.confirming p j b) f (x.committed p) f
  | 0, j, b, five => by
    obtain rfl : j = 5 := by omega
    have all : x.ctrlResp.toList.take 5 = x.ctrlResp.toList := List.take_of_length_le (by simp)
    have crc : (x.confirming p 5 b).crc = payloadCrc p x.ctrlResp.toList := by rw [Slave.confirming, all, payloadCrc]
    rw [List.drop_eq_nil_of_le (by simp), List.nil_append, Slave.committed, ← crc]
    exact .next silent (onRx_confirming_crc x b f) (.last silent (onRx_confirmed _ x f))
  | m + 1, j, b, five => by
    have low : j < 5 := by omega
    have place : (x.confirming p j b).idx.toNat = j := by
      rw [Slave.confirming, BitVec.toNat_ofNat, Nat.mod_eq_of_lt (by omega)]
    have inRange : (x.confirming p j b).idx.toNat < 5 := by rw [place]; exact low
    have next : BitVec.ofNat 8 j + 1 = BitVec.ofNat 8 (j + 1) := by bv_omega
    have bytes : x.ctrlResp.toList.drop j = x.ctrlResp[j] :: x.ctrlResp.toList.drop (j + 1) := by
      rw [List.drop_eq_getElem_cons (by simpa using low)]; simp
    have taken : x.ctrlResp.toList.take (j + 1) = x.ctrlResp.toList.take j ++ [x.ctrlResp[j]] := by
      rw [List.take_succ_eq_append_getElem (by simpa using low)]; simp
    have hears : onRx p b (x.confirming p j b) f =
        ⟨x.confirming p (j + 1) x.ctrlResp[j], f, some x.ctrlResp[j]⟩ := by
      rw [onRx_confirm_byte (sl := x.confirming p j b) rfl (show b = (x.confirming p j b).lastTx from rfl) inRange]
      simp only [place]
      simp only [Slave.confirming, next, taken, crc8Over_concat]
    rw [bytes]
    exact .next silent hears (confirms_from x silent f m (j + 1) x.ctrlResp[j] (by omega))

/-- A slave that has taken a RENUM request. -/
def Slave.retargeted (h : Byte) (request resp : Vector Byte 5) (target : Addr) (sl : Slave) : Slave :=
  { sl.requested h request with ctrlResp := resp, renumTarget := target }

theorem takes_renum (laws : CrcLaws p) (own : headerAddr h = sl.ownAddr) (cmd : headerClass h = Config.cmdClass)
    {request : Vector Byte 5} (sub : request[0] = Config.subRenum) {f g free : Free} {target : Addr} {filler : List Byte}
    (taken : renumTargetOf request[1] f = (target, g)) (drawn : Free.drawList 5 g = (filler, free)) :
    Takes p (request.toList ++ [payloadCrc p request.toList]) (sl.headed p h (headerCrc p h)) f
      ((sl.retargeted h request (fiveOf filler) target).backingOff (backoffUs p (free.draw.1.toNat % 32))) free.draw.2 := by
  refine (takes_request laws own cmd request f).append (.one (commanded_silent request) ((onRx_checkRxCtrlCrc rfl).trans ?_))
  rw [rxRequestCrc_renum (commanded_good laws request) sub, dispatchRenum_eq]
  have target_ : renumTargetOf ({ sl.commanded p h request with crc := 0 } : Slave).ctrlReq[1] f = (target, g) := taken
  simp only [target_, drawn]
  rfl

theorem retargeted_silent (request resp : Vector Byte 5) (target : Addr) :
    (sl.retargeted h request resp target).txEn = false := onBreak_txEn sl

theorem retargeted_committed (request resp : Vector Byte 5) (target : Addr) :
    (sl.retargeted h request resp target).committed p = sl.renumbered p h request resp target := rfl

theorem renumbered_deaf (request resp : Vector Byte 5) (target : Addr) :
    (sl.renumbered p h request resp target).Deaf := ⟨rfl, onBreak_txEn sl⟩

end

/-- The whole renumber of one slave on an undisturbed bus. -/
theorem conversation_renum {s : State} {k : Nat} {sl : Slave} {a target : Addr} {h : Byte} (addressed : s.Addressed k sl a)
    (header : headerAddr h = a) (cmd : headerClass h = Config.cmdClass) (time : s.TimeToRenumber) {request : Vector Byte 5}
    (sub : request[0] = Config.subRenum) {g free : Free} {filler : List Byte}
    (taken : renumTargetOf request[1] s.freeAfterEcho = (target, g)) (drawn : Free.drawList 5 g = (filler, free))
    {limit : Option Nat} (low : NotBefore limit (s.echo.length + 14)) :
    awaitReply limit
        (transmit (h :: headerCrc s.params h :: (request.toList ++ [payloadCrc s.params request.toList])) s) =
      s.afterFrame (s.othersDiscard h (headerCrc s.params h) k (sl.renumbered s.params h request (fiveOf filler) target))
        free.draw.2 (h :: headerCrc s.params h ::
          (request.toList ++ [payloadCrc s.params request.toList] ++ filler ++ [payloadCrc s.params filler])) := by
  obtain ⟨own, laws⟩ := addressed_own addressed
  obtain ⟨five, length⟩ := fiveOf_drawn drawn
  obtain ⟨at_k, lives, others, ⟨empty, quiet⟩, -⟩ := addressed
  have takes := takes_renum laws (sl := sl) (header.trans own) cmd sub taken drawn
  have sent := transmit_taken (hc := headerCrc s.params h) ⟨at_k, lives, others, laws⟩ header ⟨empty, .inl quiet⟩
    (by simp [quiet]) (by rw [quiet, List.drop_nil, heardAs_clean rfl]; exact takes)
  rw [quiet, List.drop_nil, List.drop_nil, heardAs_clean rfl] at sent
  rw [sent]
  obtain ⟨ticking, bound⟩ := time
  have deaf := othersDiscard_deaf (h := h) (hc := headerCrc s.params h) at_k
  have frame : (request.toList ++ [payloadCrc s.params request.toList]).length = 6 := by simp
  generalize request.toList ++ [payloadCrc s.params request.toList] = body at frame ⊢
  have timer := (backoffUs s.params (free.draw.1.toNat % 32)).isLt
  have heard : (s.echo ++ [h, headerCrc s.params h] ++ body).length = s.echo.length + 8 := by
    simp [frame]
  have early : NotBefore limit ((s.echo ++ [h, headerCrc s.params h] ++ body).length + 1) := fun e he => by
    have := low e he; omega
  have late : NotBefore limit ((s.echo ++ [h, headerCrc s.params h] ++ body).length + 6) := fun e he => by
    have := low e he; omega
  have resp : (sl.retargeted h request (fiveOf filler) target).ctrlResp = fiveOf filler := rfl
  have reply : (fiveOf filler)[0] :: ((fiveOf filler).toList.drop 1 ++ [payloadCrc s.params (fiveOf filler).toList]) =
      filler ++ [payloadCrc s.params filler] := by
    rw [← List.cons_append, five]
    congr 1
    rw [← five, vector_toList_five]
    rfl
  have confirms := confirms_from (p := s.params) (sl.retargeted h request (fiveOf filler) target)
    (retargeted_silent _ _ _) free.draw.2 4 1 (fiveOf filler)[0] rfl
  obtain ⟨fuel, time, fuelled, inTime, backoff⟩ := talking_backoff deaf ticking (limit := limit)
    (sl.retargeted h request (fiveOf filler) target) free.draw.2
    (s.echo ++ [h, headerCrc s.params h] ++ body) [] early (retargeted_silent _ _ _)
    (backoffUs s.params (free.draw.1.toNat % 32)) s.master.timeoutUs.toNat s.master.timeoutUs.toNat (by omega) (Nat.le_refl _)
  have confirmed := talking_confirmation deaf confirms (renumbered_deaf _ _ _)
    (heard := s.echo ++ [h, headerCrc s.params h] ++ body) (limit := limit) (fuel := fuel) (time := time)
    (by simpa [resp] using late) (by simpa [resp] using (by omega : 6 * charTimeUs s.params ≤ time)) fuelled
  rw [resp] at backoff confirmed
  rw [awaitReply]
  refine (backoff.trans confirmed).trans ?_
  rw [retargeted_committed, reply, List.append_assoc, List.append_assoc, talking_over, List.append_assoc]
  rfl

theorem exec_cmdRenum (a : Addr) (hc new crc : Byte) (args : Vector Byte 3) (s : State) :
    exec (.cmdRenum a hc new args crc) s =
      .next (frameOnWire (makeHeader 7 a :: hc ::
        ((#v[1, new, args[0], args[1], args[2]] : Vector Byte 5).toList ++ [crc])) s) := by
  have list : args.toList = [args[0], args[1], args[2]] := by
    conv_lhs => rw [vector_three args]
    rfl
  refine congrArg Host.Outcome.next ?_
  rw [commandFrame, list]
  rfl

/-- Settles O31: the conversation of the frame, the backoff and the confirmation. -/
theorem loneSlaveAdoptsTheNewAddress : Obligations.LoneSlaveAdoptsTheNewAddress := by
  rintro s k sl a target h hc new args request f filler free rfl rfl addressed time rfl taken drawn
  obtain ⟨address, cmd⟩ := command_header a
  have conversed := conversation_renum addressed address cmd time
    (request := #v[1, new, args[0], args[1], args[2]]) rfl taken.symm drawn (notBefore_none _)
  rw [exec_cmdRenum, frameOnWire, conversed]
  rfl

end Sys2Proof.Machine
end

section
/-! SUPPORT. An exchange of the master with a slave that answers, and with an address where nobody does (42 R182 to R185, 60
R342): what is read back, on an undisturbed line and where one slot is disturbed (20 R96). -/

namespace Sys2Proof.Machine

/-! ## One disturbed slot -/

/-- Receivers hear every byte but the one in the disturbed slot as it is. -/
theorem heardAs_onlySlot {mask : Noise → Byte} (harmless : mask .clean = 0) (n : Noise) : ∀ (i : Nat) (bs : List Byte),
    heardAs mask (onlySlot i n) bs = bs.modify i (· ^^^ mask n)
  | _, [] => by simp [heardAs]
  | 0, b :: bs => by
    show (b ^^^ mask n) :: heardAs mask [] bs = _
    rw [heardAs_clean harmless]
    rfl
  | i + 1, b :: bs => by
    show (b ^^^ mask .clean) :: heardAs mask (onlySlot i n) bs = _
    have unflipped : b ^^^ 0 = b := BitVec.xor_zero
    rw [heardAs_onlySlot harmless n i bs, harmless, unflipped]
    rfl

theorem modify_unflipped (bs : List Byte) (i : Nat) : bs.modify i (· ^^^ 0) = bs := by
  have same : (fun b : Byte => b ^^^ 0) = id := funext fun b => BitVec.xor_zero
  rw [same, List.modify_id]

theorem flipped_ne {b mask : Byte} (flips : mask ≠ 0) : b ≠ b ^^^ mask := by
  intro same
  have zero : b ^^^ mask = b ^^^ 0 := by rw [← same]; exact BitVec.xor_zero.symm
  exact flips ((BitVec.xor_right_inj b).1 zero)

theorem onlySlot_after_header (i : Nat) (n : Noise) : onlySlot (2 + i) n = .clean :: .clean :: onlySlot i n := by
  rw [Nat.add_comm]
  rfl

theorem onlySlot_carries {n : Noise} (carries : n.Carries) (i : Nat) : ∀ m ∈ onlySlot i n, m.Carries := by
  intro m member
  obtain inside | last := List.mem_append.1 member
  · rw [(List.mem_replicate.1 inside).2]
    exact ⟨nofun, nofun⟩
  · rw [List.mem_singleton.1 last]
    exact carries

/-- A list around one of its places, and the list with that byte changed. -/
theorem modify_split {bs : List Byte} {i : Nat} (low : i < bs.length) (mask : Byte) :
    bs = bs.take i ++ bs[i] :: bs.drop (i + 1) ∧
      bs.modify i (· ^^^ mask) = bs.take i ++ (bs[i] ^^^ mask) :: bs.drop (i + 1) := by
  constructor
  · rw [← List.drop_eq_getElem_cons low, List.take_append_drop]
  · rw [List.modify_eq_take_cons_drop low]

/-- A window that verified does not verify with one byte changed (40 R149). -/
theorem payloadOk_modify {p : Params} (laws : CrcLaws p) {window : List Byte} (good : payloadOk p window = true) {i : Nat}
    (low : i < window.length) {mask : Byte} (flips : mask ≠ 0) : payloadOk p (window.modify i (· ^^^ mask)) = false := by
  obtain ⟨whole, changed⟩ := modify_split low mask
  rw [whole] at good
  rw [changed]
  exact payloadOk_false_of_one laws (flipped_ne flips) good

theorem modify_ne {bs : List Byte} {i : Nat} (low : i < bs.length) {mask : Byte} (flips : mask ≠ 0) :
    bs.modify i (· ^^^ mask) ≠ bs := by
  intro same
  have here : (bs.modify i (· ^^^ mask))[i]? = bs[i]? := congrArg (·[i]?) same
  rw [List.getElem?_modify_eq, List.getElem?_eq_getElem low] at here
  exact flipped_ne flips (Option.some.inj here).symm

/-! ## What an operation reports about an exchange -/

theorem lockMutex_timeoutUs (s : State) : (lockMutex s).master.timeoutUs = s.master.timeoutUs := by
  rw [lockMutex_eq]

/-- The default break echo (D2). -/
abbrev OneEcho (p : Params) : Prop := p.breakEchoBytes = 1

theorem hdrWin_oneEcho {p : Params} (one : OneEcho p) : hdrWin p = 3 := by rw [hdrWin, one]; rfl

theorem echo_length {s : State} (one : OneEcho s.params) : s.echo.length = 1 := by
  rw [State.echo, drawList_length, one]; rfl

theorem writeFrame_length (p : Params) (a : Addr) (c : MsgClass) (payload : List Byte) :
    (buildWriteFrame p a c payload).length = payload.length + 3 := by
  simp [buildWriteFrame, headerBytes]

/-- SEND_MESSAGE from what its exchange leaves on the bus. -/
theorem send_reports {s q : State} {a : Addr} {c : MsgClass} {payload : List Byte} (ready : s.Ready)
    (one : OneEcho s.params) (data : c ≠ Config.cmdClass) (fits : payload.length ≤ s.params.maxPayload)
    (talk : awaitReply (some (payload.length + 5)) (transmit (buildWriteFrame s.params a c payload) (lockMutex s)) = q)
    (bounded : q.bus.stream.length ≤ payload.length + 5) :
    ∃ t, exec (.sendMessage a c payload) s = .next t ∧ t.slaves = q.slaves ∧ t.mem = s.mem ∧
      t.master.rxbuf = q.bus.stream ∧
      t.master.result = some (if q.bus.stream.length = payload.length + 4 then .noResponse
        else if q.bus.stream.length < payload.length + 5 then .timeout
        else if (q.bus.stream.drop 3).take (payload.length + 1) ≠ payload ++ [payloadCrc s.params payload] then .crcError
        else if q.bus.stream.getLast? ≠ some 0x55 then .notAcknowledged
        else .ok) := by
  have count : sendCount s.params payload.length = payload.length + 5 := by
    rw [sendCount, hdrWin_oneEcho one]; omega
  have body := sendBody_eq a c payload (lockMutex s)
  have params : (lockMutex s).params = s.params := rfl
  rw [params, count, exchange, talk] at body
  have heard : (keepExchange (buildWriteFrame s.params a c payload) (payload.length + 5) q).master.rxbuf = q.bus.stream :=
    List.take_of_length_le bounded
  rw [heard, sendVerdict_eq s.params a c payload bounded, writeFrame_length, hdrWin_oneEcho one] at body
  have master := returned_master (sendBody_move a c payload (lockMutex s)).stores (R := fun _ => False)
  refine ⟨_, exec_send ready data fits, ?_, ?_, ?_, ?_⟩
  · rw [returned, body]; rfl
  · exact (sendBody_move a c payload (lockMutex s)).mem
  · rw [master, body]; exact heard
  · rw [master, body]

theorem returned_slaves (body : State → ResultCode × State) (s : State) :
    (returned body s).slaves = (body (lockMutex s)).2.slaves := rfl

/-- RECEIVE_MESSAGE from what its exchange leaves on the bus. -/
theorem receive_reports {s q : State} {a : Addr} {c : MsgClass} {len : Byte} {buf : BufRef} (ready : s.Ready)
    (one : OneEcho s.params) (data : c ≠ Config.cmdClass) (fits : len.toNat ≤ s.params.maxPayload)
    (talk : awaitReply (some (len.toNat + 4)) (transmit (buildReadRequest s.params a c) (lockMutex s)) = q)
    (bounded : q.bus.stream.length ≤ len.toNat + 4) :
    ∃ t, exec (.receiveMessage a c len buf) s = .next t ∧ t.slaves = q.slaves ∧
      t.master.result = some (if q.bus.stream.length = 3 then .noResponse
        else if q.bus.stream.length < len.toNat + 4 then .timeout
        else if payloadOk s.params (q.bus.stream.drop 3) = false then .crcError else .ok) ∧
      (t.master.result = some .ok →
        t.mem = Memory.store buf.toNat ((q.bus.stream.drop 3).take len.toNat) s.mem) := by
  have count : receiveCount s.params len.toNat = len.toNat + 4 := by rw [receiveCount, hdrWin_oneEcho one]; omega
  have params : (lockMutex s).params = s.params := rfl
  obtain ⟨code, -, -, stored⟩ := receiveBody_exchange a c len buf (lockMutex s)
  have slaves : (receiveBody a c len buf (lockMutex s)).2.slaves = q.slaves := by
    rw [← talk, ← count]
    simp only [receiveBody]
    split <;> rfl
  have heard : (keepExchange (buildReadRequest s.params a c) (len.toNat + 4) q).master.rxbuf = q.bus.stream :=
    List.take_of_length_le bounded
  rw [params, count, exchange, talk, heard, hdrWin_oneEcho one] at code stored
  rw [replyVerdict_eq s.params bounded] at code
  have master := returned_master (receiveBody_move a c len buf (lockMutex s))
  refine ⟨_, exec_receive ready data fits, (returned_slaves _ s).trans slaves, by rw [master, code], fun ok => ?_⟩
  rw [master] at ok
  rw [returned_mem, stored (Option.some.inj ok), replyWindow, List.take_of_length_le bounded]
  rfl

/-- One command exchange from what it leaves on the bus. -/
theorem command_reports {s q : State} {a : Addr} {request : Vector Byte 5} (one : OneEcho s.params)
    (talk : awaitReply (some 15) (transmit (buildCmdFrame s.params a request) s) = q)
    (bounded : q.bus.stream.length ≤ 15) :
    command a request s =
      (if q.bus.stream.length = 9 then .noResponse
        else if q.bus.stream.length < 15 then .timeout
        else if payloadOk s.params (q.bus.stream.drop 9) = false then .crcError else .ok,
       fiveOf (q.bus.stream.drop 9), keepExchange (buildCmdFrame s.params a request) 15 q) := by
  have count : commandCount s.params = 15 := by rw [commandCount, hdrWin_oneEcho one]
  have width : (buildCmdFrame s.params a request).length = 8 := by simp [buildCmdFrame, headerBytes]
  have heard : (keepExchange (buildCmdFrame s.params a request) 15 q).master.rxbuf = q.bus.stream :=
    List.take_of_length_le bounded
  rw [command]
  simp only [count, width, hdrWin_oneEcho one]
  rw [exchange, talk, heard, replyVerdict_eq s.params bounded, replyWindow, List.take_of_length_le bounded]

end Sys2Proof.Machine
end

section
/-! SUPPORT. The master's exchanges with a healthy slave among others (42 R182 to R184, R189) and with an address where nobody
lives (42 R185, 60 R342). -/

namespace Sys2Proof.Machine

theorem onlySlot_drop (i : Nat) (n : Noise) : (onlySlot (2 + i) n).drop 2 = onlySlot i n := by
  rw [onlySlot_after_header]; rfl

theorem heardByMaster_onlySlot (i : Nat) (mask : Byte) (bs : List Byte) :
    heardAs Noise.maskAtMaster (onlySlot i (.flipAtMaster mask)) bs = bs.modify i (· ^^^ mask) :=
  heardAs_onlySlot rfl _ i bs

/-- What is changed at the master's receiver alone the slaves do not notice. -/
theorem heardBySlaves_onlySlot (i : Nat) (mask : Byte) (bs : List Byte) :
    heardAs Noise.maskAtSlaves (onlySlot i (.flipAtMaster mask)) bs = bs :=
  (heardAs_onlySlot rfl _ i bs).trans (modify_unflipped bs i)

/-- The last byte of a list, changed. -/
theorem getLast?_modify_last (bs : List Byte) (b mask : Byte) :
    ((bs ++ [b]).modify bs.length (· ^^^ mask)).getLast? = some (b ^^^ mask) := by
  rw [List.getLast?_eq_getElem?, List.length_modify, List.length_append, List.length_singleton, Nat.add_sub_cancel,
    List.getElem?_modify_eq, List.getElem?_concat_length]
  rfl

theorem echo_drop {s : State} (one : OneEcho s.params) (h c : Byte) (bs : List Byte) :
    (s.echo ++ [h, c] ++ bs).drop 3 = bs := by
  have length : (s.echo ++ [h, c]).length = 3 := by simp [echo_length one]
  rw [← length, List.drop_left]

theorem echo_count {s : State} (one : OneEcho s.params) (h c : Byte) (bs : List Byte) :
    (s.echo ++ [h, c] ++ bs).length = bs.length + 3 := by
  simp [echo_length one]; omega

/-- An undisturbed bus, written as one with no disturbance to come. -/
theorem disturbed_none {s : State} (clean : s.CleanBus) : s.disturbed [] = s := by
  rw [State.disturbed, ← clean.2]

/-- A conversation of an operation of the master: what the slaves are left as, and what the master's receiver heard. -/
theorem conversation_locked {s : State} {k : Nat} {sl : Slave} {a : Addr} {h hc : Byte} {noise coming : List Noise}
    (addressed : s.Addressed k sl a) (header : headerAddr h = a)
    (clean : noise = [] ∨ ∃ rest, noise = .clean :: .clean :: rest) (after : noise.drop 2 = coming)
    (carried : ∀ n ∈ coming, n.Carries) {body reply : List Byte} {y z : Slave} {f g : Free} {limit : Option Nat}
    (takes : Takes s.params (heardAs Noise.maskAtSlaves coming body) (sl.headed s.params h hc) s.freeAfterEcho y f)
    (sends : Sends s.params reply y f z g) (deaf : z.Deaf)
    (low : NotBefore limit (s.echo.length + 2 + body.length + reply.length)) (inTime : s.TimeFor reply.length) :
    ∃ q, awaitReply limit (transmit (h :: hc :: body) (lockMutex (s.disturbed noise))) = q ∧
      q.slaves = s.othersDiscard h hc k z ∧
      q.bus.stream = s.echo ++ [h, hc] ++ heardAs Noise.maskAtMaster coming (body ++ reply) := by
  obtain ⟨at_k, lives, others, ⟨empty, -⟩, laws⟩ := addressed
  subst after
  have time : (lockMutex (s.disturbed noise)).TimeFor reply.length := by
    rw [State.TimeFor, lockMutex_timeoutUs]
    exact inTime
  exact ⟨_, conversation (s := lockMutex (s.disturbed noise)) ⟨at_k, lives, others, laws⟩ header ⟨empty, clean⟩ carried
    takes sends deaf low time, rfl, rfl⟩

/-! ## A write (42 R182) -/

section
variable {s : State} {k : Nat} {sl : Slave} {a : Addr} {c : MsgClass} {payload : List Byte} {more : Nat}

/-- SEND_MESSAGE where the slave takes the frame and acknowledges, whatever the master makes of the line. -/
theorem send_acknowledged {noise coming : List Noise} (ready : s.Ready) (addressed : s.Addressed k sl a)
    (one : OneEcho s.params) (time : s.TimeFor 1) (data : c ≠ Config.cmdClass) (kind : sl.dev.kind c = .receive more)
    (length : payload.length = more + 1) (fits : payload.length ≤ s.params.maxPayload)
    (clean : noise = [] ∨ ∃ rest, noise = .clean :: .clean :: rest) (after : noise.drop 2 = coming)
    (carried : ∀ n ∈ coming, n.Carries)
    (unflipped : heardAs Noise.maskAtSlaves coming (payload ++ [payloadCrc s.params payload]) =
      payload ++ [payloadCrc s.params payload]) {line : List Byte}
    (heard : heardAs Noise.maskAtMaster coming (payload ++ [payloadCrc s.params payload] ++ [0x55]) = line) :
    ∃ t, exec (.sendMessage a c payload) (s.disturbed noise) = .next t ∧
      t.slaves = s.othersDiscard (makeHeader c a) (headerCrc s.params (makeHeader c a)) k
        (sl.stored (makeHeader c a) payload) ∧ t.mem = s.mem ∧
      t.master.rxbuf = s.echo ++ [makeHeader c a, headerCrc s.params (makeHeader c a)] ++ line ∧
      t.master.result = some (
        if line.take (payload.length + 1) ≠ payload ++ [payloadCrc s.params payload] then .crcError
        else if line.getLast? ≠ some 0x55 then .notAcknowledged
        else .ok) := by
  have address := headerAddr_makeHeader c a
  obtain ⟨data', kind'⟩ := data_header a data kind
  obtain ⟨own, laws⟩ := addressed_own addressed
  obtain ⟨y, takes, sends⟩ := takes_write laws (sl := sl) (address.trans own) data' kind' length s.freeAfterEcho
  have count : line.length = payload.length + 2 := by simp [← heard]
  obtain ⟨q, talk, slaves, stream⟩ := conversation_locked addressed address (limit := some (payload.length + 5)) clean after
    carried (body := payload ++ [payloadCrc s.params payload]) (unflipped.symm ▸ takes) sends (stored_deaf payload)
    (fun e he => by cases he; simp [echo_length one]; omega) time
  rw [heard] at stream
  have whole : q.bus.stream.length = payload.length + 5 := by rw [stream, echo_count one, count]
  obtain ⟨t, run, slavesThen, mem, rx, result⟩ := send_reports (s := s.disturbed noise) ready one data fits talk (by omega)
  refine ⟨t, run, slavesThen.trans slaves, mem, rx.trans stream, result.trans ?_⟩
  have last : (s.echo ++ [makeHeader c a, headerCrc s.params (makeHeader c a)] ++ line).getLast? = line.getLast? := by
    rw [List.getLast?_append_of_ne_nil]
    exact List.ne_nil_of_length_pos (by omega)
  rw [if_neg (by omega), if_neg (by omega), stream, echo_drop one, last]
  rfl

/-- SEND_MESSAGE where the slave hears another payload or CRC byte. -/
theorem send_spoiled {noise coming : List Noise} (ready : s.Ready) (addressed : s.Addressed k sl a)
    (one : OneEcho s.params) (data : c ≠ Config.cmdClass) (kind : sl.dev.kind c = .receive more)
    (length : payload.length = more + 1) (fits : payload.length ≤ s.params.maxPayload)
    (clean : noise = [] ∨ ∃ rest, noise = .clean :: .clean :: rest) (after : noise.drop 2 = coming)
    (carried : ∀ n ∈ coming, n.Carries) {window : List Byte}
    (flipped : heardAs Noise.maskAtSlaves coming (payload ++ [payloadCrc s.params payload]) = window)
    (bad : payloadOk s.params window = false) :
    ∃ t, exec (.sendMessage a c payload) (s.disturbed noise) = .next t ∧ t.master.result = some .noResponse ∧
      t.slaves = s.othersDiscard (makeHeader c a) (headerCrc s.params (makeHeader c a)) k
        (sl.spoiled s.params (makeHeader c a) window) := by
  have address := headerAddr_makeHeader c a
  obtain ⟨data', kind'⟩ := data_header a data kind
  obtain ⟨own, laws⟩ := addressed_own addressed
  have count : window.length = payload.length + 1 := by simp [← flipped]
  have some_ : window ≠ [] := List.ne_nil_of_length_pos (by omega)
  have split : window = window.dropLast ++ [window.getLast some_] := (List.dropLast_append_getLast some_).symm
  have takes := takes_spoiled laws (sl := sl) (address.trans own) data' kind' (payload := window.dropLast)
    (b := window.getLast some_) (by rw [List.length_dropLast]; omega) (split ▸ bad) s.freeAfterEcho
  rw [← split, ← flipped] at takes
  obtain ⟨q, talk, slaves, stream⟩ := conversation_locked addressed address (limit := some (payload.length + 5)) clean after
    carried takes (.done _ _) (spoiled_deaf _) (fun e he => by cases he; simp [echo_length one]; omega) (timeFor_zero s)
  have whole : q.bus.stream.length = payload.length + 4 := by rw [stream, echo_count one]; simp
  obtain ⟨t, run, slavesThen, -, -, result⟩ := send_reports (s := s.disturbed noise) ready one data fits talk (by omega)
  exact ⟨t, run, result.trans (by rw [if_pos whole]), (slavesThen.trans slaves).trans (by rw [flipped])⟩

end

/-- Settles O50: what the slave takes and sends in the conversation fixes the bytes the master's tests look at. -/
theorem healthyWriteReturnsOk : Obligations.HealthyWriteReturnsOk := by
  rintro s k sl a c h hc payload more ready addressed one time data rfl rfl kind length fits
  refine ⟨?ok, fun i mask low flips => ?crc, fun mask flips => ?ack, fun i mask low flips => ?lost⟩
  case ok =>
    obtain ⟨t, run, slaves, mem, rx, result⟩ := send_acknowledged (noise := []) ready addressed one time data kind length fits
      (.inl rfl) rfl nofun (heardAs_clean rfl _) (heardAs_clean rfl _)
    rw [disturbed_none addressed.2.2.2.1] at run
    refine ⟨t, run, ?_, by simpa [buildWriteFrame, headerBytes] using rx, slaves, mem⟩
    rw [result, List.take_left' (by simp), if_neg (not_not.2 rfl), if_neg (by simp)]
  case crc =>
    have inside : i < (payload ++ [payloadCrc s.params payload]).length := by simp; omega
    obtain ⟨t, run, slaves, -, -, result⟩ := send_acknowledged (noise := onlySlot (2 + i) (.flipAtMaster mask)) ready
      addressed one time data kind length fits (.inr ⟨_, onlySlot_after_header i _⟩)
      (onlySlot_drop i _) (onlySlot_carries (n := .flipAtMaster mask) ⟨nofun, nofun⟩ i)
      (heardBySlaves_onlySlot i mask _) (heardByMaster_onlySlot i mask _)
    refine ⟨t, run, ?_, slaves⟩
    rw [result, List.take_modify, List.take_left' (by simp), if_pos (modify_ne inside flips)]
  case ack =>
    obtain ⟨t, run, slaves, -, -, result⟩ := send_acknowledged
      (noise := onlySlot (2 + (payload.length + 1)) (.flipAtMaster mask)) ready
      addressed one time data kind length fits (.inr ⟨_, onlySlot_after_header _ _⟩)
      (onlySlot_drop _ _) (onlySlot_carries (n := .flipAtMaster mask) ⟨nofun, nofun⟩ _)
      (heardBySlaves_onlySlot _ mask _) (heardByMaster_onlySlot _ mask _)
    rw [show 2 + (payload.length + 1) = 3 + payload.length by omega] at run
    refine ⟨t, run, ?_, slaves⟩
    have window : (payload ++ [payloadCrc s.params payload]).modify (payload.length + 1) (· ^^^ mask) =
        payload ++ [payloadCrc s.params payload] := List.modify_eq_self (by simp)
    have last := getLast?_modify_last (payload ++ [payloadCrc s.params payload]) 0x55 mask
    rw [List.length_append, List.length_singleton] at last
    have changed : ¬some (0x55 ^^^ mask) = some 0x55 := fun same => flipped_ne flips (Option.some.inj same).symm
    rw [result, List.take_modify, List.take_left' (by simp), if_neg (not_not.2 window)]
    exact congrArg some (if_pos fun same => changed (last.symm.trans same))
  case lost =>
    have inside : i < (payload ++ [payloadCrc s.params payload]).length := by simp; omega
    obtain ⟨-, laws⟩ := addressed_own addressed
    exact send_spoiled ready addressed one data kind length fits (.inr ⟨_, onlySlot_after_header i (.flipAll mask)⟩)
      (onlySlot_drop i _) (onlySlot_carries (n := .flipAll mask) ⟨nofun, nofun⟩ i) (heardAs_onlySlot rfl _ i _)
      (payloadOk_modify laws (payloadOk_closed laws payload) inside flips)

/-! ## A read (42 R183) -/

/-- RECEIVE_MESSAGE where the slave answers, whatever the master makes of the line. -/
theorem receive_answered {s : State} {k : Nat} {sl : Slave} {a : Addr} {c : MsgClass} {len : Byte} {buf : BufRef}
    {reply : List Byte} {noise coming : List Noise} (ready : s.Ready) (addressed : s.Addressed k sl a)
    (one : OneEcho s.params) (time : s.TimeFor (len.toNat + 1)) (data : c ≠ Config.cmdClass)
    (kind : sl.dev.kind c = .transmit len.toNat) (fits : len.toNat ≤ s.params.maxPayload)
    (drawn : reply = (Free.drawList len.toNat s.freeAfterEcho).1)
    (clean : noise = [] ∨ ∃ rest, noise = .clean :: .clean :: rest) (after : noise.drop 2 = coming)
    (carried : ∀ n ∈ coming, n.Carries) {line : List Byte}
    (heard : heardAs Noise.maskAtMaster coming (reply ++ [payloadCrc s.params reply]) = line) :
    ∃ t, exec (.receiveMessage a c len buf) (s.disturbed noise) = .next t ∧
      t.slaves = s.othersDiscard (makeHeader c a) (headerCrc s.params (makeHeader c a)) k
        (sl.replied s.params (makeHeader c a) reply) ∧
      t.master.result = some (if payloadOk s.params line = false then .crcError else .ok) ∧
      (t.master.result = some .ok → t.mem = Memory.store buf.toNat (line.take len.toNat) s.mem) := by
  have address := headerAddr_makeHeader c a
  obtain ⟨data', kind'⟩ := data_header a data kind
  obtain ⟨own, laws⟩ := addressed_own addressed
  have sends := sends_read laws (sl := sl) (address.trans own) data' kind' (Prod.ext drawn.symm rfl)
  have length : reply.length = len.toNat := by rw [drawn, drawList_length]
  have count : line.length = len.toNat + 1 := by simp [← heard, length]
  obtain ⟨q, talk, slaves, stream⟩ := conversation_locked addressed address (limit := some (len.toNat + 4)) clean after
    carried (body := []) (.done _ _) sends (replied_deaf reply) (fun e he => by cases he; simp [echo_length one, length]; omega)
    (by simpa [length] using time)
  rw [List.nil_append, heard] at stream
  have whole : q.bus.stream.length = len.toNat + 4 := by rw [stream, echo_count one, count]
  obtain ⟨t, run, slavesThen, result, stored⟩ :=
    receive_reports (s := s.disturbed noise) (buf := buf) ready one data fits talk (by omega)
  rw [stream, echo_drop one] at stored
  rw [if_neg (by omega), if_neg (by omega), stream, echo_drop one] at result
  exact ⟨t, run, slavesThen.trans slaves, result, stored⟩

/-- Settles O51: what the slave sends in the conversation fixes the bytes the master's tests look at. -/
theorem healthyReadFillsTheBuffer : Obligations.HealthyReadFillsTheBuffer := by
  rintro s k sl a c h hc len buf reply ready addressed wf one time data rfl rfl kind fits drawn
  obtain ⟨-, laws⟩ := addressed_own addressed
  have length : reply.length = len.toNat := by rw [drawn, drawList_length]
  constructor
  · obtain ⟨t, run, slaves, result, stored⟩ := receive_answered (buf := buf) (noise := []) ready addressed one time data kind
      fits drawn (.inl rfl) rfl nofun (heardAs_clean rfl _)
    rw [disturbed_none addressed.2.2.2.1] at run
    rw [payloadOk_closed laws reply, if_neg nofun] at result
    refine ⟨t, run, result, ?_, slaves⟩
    have back := load_store buf.toNat (vs := reply) wf
    rwa [length, ← List.take_left' (l₂ := [payloadCrc s.params reply]) length, ← stored result,
      List.take_left' length] at back
  · intro i mask low flips
    have inside : i < (reply ++ [payloadCrc s.params reply]).length := by simp; omega
    obtain ⟨t, run, slaves, result, -⟩ := receive_answered (buf := buf) (noise := onlySlot (2 + i) (.flipAtMaster mask)) ready
      addressed one time data kind fits drawn (.inr ⟨_, onlySlot_after_header i _⟩) (onlySlot_drop i _)
      (onlySlot_carries (n := .flipAtMaster mask) ⟨nofun, nofun⟩ i) (heardByMaster_onlySlot i mask _)
    rw [payloadOk_modify laws (payloadOk_closed laws reply) inside flips, if_pos rfl] at result
    exact ⟨t, run, result, slaves⟩

end Sys2Proof.Machine
end

section
/-! SUPPORT. Command exchanges with a healthy slave among others and with nobody (42 R184, R185, R189 to R191), and what the
operations made of them report. -/

namespace Sys2Proof.Machine

/-! ## One command exchange -/

section
variable {s : State} {k : Nat} {sl : Slave} {a : Addr}

/-- The state a command exchange leaves: these slaves, and the frame and the reply heard. -/
abbrev State.CommandLeaves (s : State) (a : Addr) (request : Vector Byte 5) (slaves : List Slave) (t : State) : Prop :=
  ∃ (free : Free) (heard : List Byte),
    t = keepExchange (buildCmdFrame s.params a request) 15 (s.afterFrame slaves free heard)

/-- A command that is answered. -/
theorem command_answered {request resp : Vector Byte 5} {slaves : List Slave} {free : Free} (one : OneEcho s.params)
    (laws : CrcLaws s.params)
    (talk : awaitReply (some 15) (transmit (buildCmdFrame s.params a request) s) =
      s.afterFrame slaves free (buildCmdFrame s.params a request ++ (resp.toList ++ [payloadCrc s.params resp.toList]))) :
    ∃ t, command a request s = (.ok, resp, t) ∧ s.CommandLeaves a request slaves t := by
  have width : (s.echo ++ buildCmdFrame s.params a request).length = 9 := by
    simp [echo_length one, buildCmdFrame, headerBytes]
  have stream : (s.afterFrame slaves free (buildCmdFrame s.params a request ++
      (resp.toList ++ [payloadCrc s.params resp.toList]))).bus.stream =
        s.echo ++ buildCmdFrame s.params a request ++ (resp.toList ++ [payloadCrc s.params resp.toList]) := by
    rw [List.append_assoc]; rfl
  have count : (s.afterFrame slaves free (buildCmdFrame s.params a request ++
      (resp.toList ++ [payloadCrc s.params resp.toList]))).bus.stream.length = 15 := by
    rw [stream, List.length_append, width]; simp
  have drop : (s.afterFrame slaves free (buildCmdFrame s.params a request ++
      (resp.toList ++ [payloadCrc s.params resp.toList]))).bus.stream.drop 9 =
        resp.toList ++ [payloadCrc s.params resp.toList] := by
    rw [stream, ← width, List.drop_left]
  have reported := command_reports one talk (by omega)
  rw [if_neg (by omega), if_neg (by omega), drop, payloadOk_closed laws, if_neg nofun] at reported
  have same : fiveOf (resp.toList ++ [payloadCrc s.params resp.toList]) = resp := by
    rw [← Vector.toList_inj, fiveOf_toList (by simp), List.take_left' (by simp)]
  rw [same] at reported
  exact ⟨_, reported, _, _, rfl⟩

theorem buildCmdFrame_eq (p : Params) (a : Addr) (request : Vector Byte 5) :
    buildCmdFrame p a request = makeHeader 7 a :: headerCrc p (makeHeader 7 a) ::
      (request.toList ++ [payloadCrc p request.toList]) := rfl

/-- PROBE of a slave: OK, and the slave has sent five free bytes (44 R271). -/
theorem command_probe (addressed : s.Addressed k sl a) (one : OneEcho s.params) (time : s.TimeFor 6) :
    ∃ (resp : Vector Byte 5) (t : State), command a probeRequest s = (.ok, resp, t) ∧
      s.CommandLeaves a probeRequest (s.othersDiscard (makeHeader 7 a) (headerCrc s.params (makeHeader 7 a)) k
        (sl.responded s.params (makeHeader 7 a) probeRequest resp [])) t := by
  obtain ⟨address, cmd⟩ := command_header a
  obtain ⟨own, laws⟩ := addressed_own addressed
  obtain ⟨y, takes, sends⟩ := takes_probe laws (sl := sl) (address.trans own) cmd (request := probeRequest)
    (f := s.freeAfterEcho) rfl rfl
  have talk := conversation_clean addressed address (limit := some 15) takes sends (responded_deaf _ _ _)
    (fun e he => by cases he; simp [echo_length one]) (by simpa using time)
  obtain ⟨t, ran, leaves⟩ := command_answered (a := a) (request := probeRequest) one laws talk
  exact ⟨_, t, ran, leaves⟩

/-- INQUIRE of a slave: OK, and its identity (44 R273). -/
theorem command_inquire (addressed : s.Addressed k sl a) (one : OneEcho s.params) (time : s.TimeFor 6) :
    ∃ (btn : Bool) (t : State), command a inquireRequest s = (.ok, encodeInquire sl.devType sl.fwVer sl.hwRev btn, t) ∧
      s.CommandLeaves a inquireRequest (s.othersDiscard (makeHeader 7 a) (headerCrc s.params (makeHeader 7 a)) k
        (sl.responded s.params (makeHeader 7 a) inquireRequest (encodeInquire sl.devType sl.fwVer sl.hwRev btn)
          [.readIndicator btn])) t := by
  obtain ⟨address, cmd⟩ := command_header a
  obtain ⟨own, laws⟩ := addressed_own addressed
  obtain ⟨y, takes, sends⟩ := takes_inquire laws (sl := sl) (address.trans own) cmd (request := inquireRequest)
    rfl s.freeAfterEcho rfl
  have talk := conversation_clean addressed address (limit := some 15) takes sends (responded_deaf _ _ _)
    (fun e he => by cases he; simp [echo_length one]) (by simpa using time)
  obtain ⟨t, ran, leaves⟩ := command_answered (a := a) (request := inquireRequest) one laws talk
  exact ⟨_, t, ran, leaves⟩

/-- An address as the new address of a request (45 R321). -/
theorem renumTargetOf_address (new : Addr) (f : Free) : renumTargetOf (new.setWidth 8) f = (new, f) := by
  have low : new.setWidth 8 < 32 := by bv_omega
  have back : (new.setWidth 8).setWidth 5 = new := by
    rw [BitVec.setWidth_setWidth_of_le _ (by decide), BitVec.setWidth_eq]
  rw [renumTargetOf, if_pos low, back]

/-- RENUM of a slave: OK, and the slave has moved (45 R326). -/
theorem command_renum (addressed : s.Addressed k sl a) (one : OneEcho s.params) (time : s.TimeToRenumber) (new : Addr) :
    ∃ (resp : Vector Byte 5) (t : State), command a (renumRequest new) s = (.ok, resp, t) ∧
      s.CommandLeaves a (renumRequest new) (s.othersDiscard (makeHeader 7 a) (headerCrc s.params (makeHeader 7 a)) k
        (sl.renumbered s.params (makeHeader 7 a) (renumRequest new) (fiveOf (Free.drawList 5 s.freeAfterEcho).1) new)) t := by
  obtain ⟨address, cmd⟩ := command_header a
  obtain ⟨own, laws⟩ := addressed_own addressed
  have taken : renumTargetOf (renumRequest new)[1] s.freeAfterEcho = (new, s.freeAfterEcho) :=
    renumTargetOf_address new s.freeAfterEcho
  obtain ⟨filler, free, drawn⟩ : ∃ filler free, Free.drawList 5 s.freeAfterEcho = (filler, free) := ⟨_, _, rfl⟩
  obtain ⟨five, -⟩ := fiveOf_drawn drawn
  have talk := conversation_renum addressed address cmd time (request := renumRequest new) rfl taken drawn
    (limit := some 15) (fun e he => by cases he; simp [echo_length one])
  obtain ⟨t, ran, leaves⟩ := command_answered (a := a) (request := renumRequest new)
    (resp := fiveOf filler) one laws (talk.trans (by rw [five, List.append_assoc]; rfl))
  rw [drawn]
  exact ⟨_, t, ran, leaves⟩

/-- A command to an address where nobody lives. -/
theorem command_silent (clean : s.CleanBus) (laws : CrcLaws s.params) (one : OneEcho s.params)
    (nobody : ∀ x ∈ s.slaves, x.ownAddr ≠ a) (request : Vector Byte 5) :
    ∃ (resp : Vector Byte 5) (t : State), command a request s = (.noResponse, resp, t) ∧
      s.CommandLeaves a request
        (s.slaves.map (Slave.discarded s.params (makeHeader 7 a) (headerCrc s.params (makeHeader 7 a)))) t := by
  have foreign : ∀ x ∈ s.slaves, x.ownAddr ≠ headerAddr (makeHeader 7 a) ∨
      headerCrc s.params (makeHeader 7 a) ≠ headerCrc s.params (makeHeader 7 a) := fun x member =>
    .inl (by rw [headerAddr_makeHeader]; exact nobody x member)
  have talk := conversation_nobody (request.toList ++ [payloadCrc s.params request.toList]) (some 15) clean laws foreign
  have stream : (s.afterFrame (s.slaves.map (Slave.discarded s.params (makeHeader 7 a)
      (headerCrc s.params (makeHeader 7 a)))) s.freeAfterEcho (buildCmdFrame s.params a request)).bus.stream.length = 9 := by
    show (s.echo ++ buildCmdFrame s.params a request).length = 9
    simp [echo_length one, buildCmdFrame, headerBytes]
  have reported := command_reports (request := request) one talk (by rw [← buildCmdFrame_eq]; omega)
  rw [← buildCmdFrame_eq, if_pos stream] at reported
  exact ⟨_, _, reported, _, _, rfl⟩

/-- What holds of the state a command leaves. -/
theorem commandLeaves_facts {request : Vector Byte 5} {slaves : List Slave} {t : State}
    (leaves : s.CommandLeaves a request slaves t) :
    t.slaves = slaves ∧ t.CleanBus ∧ t.params = s.params ∧ t.master.timeoutUs = s.master.timeoutUs := by
  obtain ⟨free, heard, rfl⟩ := leaves
  exact ⟨rfl, ⟨rfl, rfl⟩, rfl, rfl⟩

end

/-! ## An address where nobody lives (42 R185, 60 R342) -/

/-- Nobody lives at `a`, on a bus that carries frames unharmed. -/
abbrev State.Silent (s : State) (a : Addr) : Prop :=
  s.CleanBus ∧ CrcLaws s.params ∧ OneEcho s.params ∧ ∀ x ∈ s.slaves, x.ownAddr ≠ a

theorem discarded_ownAddr (p : Params) (h c : Byte) (sl : Slave) : (sl.discarded p h c).ownAddr = sl.ownAddr :=
  onBreak_ownAddr sl

theorem silent_after_command {s t : State} {a b : Addr} {request : Vector Byte 5} {h c : Byte} (silent : s.Silent b)
    (leaves : s.CommandLeaves a request (s.slaves.map (Slave.discarded s.params h c)) t) : t.Silent b := by
  obtain ⟨-, laws, one, nobody⟩ := silent
  obtain ⟨slaves, clean, params, -⟩ := commandLeaves_facts leaves
  refine ⟨clean, params ▸ laws, params ▸ one, fun x member => ?_⟩
  rw [slaves] at member
  obtain ⟨y, there, rfl⟩ := List.mem_map.1 member
  rw [discarded_ownAddr]
  exact nobody y there

/-- An attempt that fails is followed by the next, if any. -/
theorem renumAttempts_failed {old new : Addr} {s t : State} {code : ResultCode} {resp : Vector Byte 5}
    (ran : command old (renumRequest new) s = (code, resp, t)) (failed : code ≠ .ok) (n : Nat) (last : ResultCode) :
    renumAttempts old new (n + 1) last s = renumAttempts old new n code t := by
  rw [renumAttempts, ran]
  exact if_neg failed

/-- An attempt that is OK is the last. -/
theorem renumAttempts_ok {old new : Addr} {s t : State} {resp : Vector Byte 5}
    (ran : command old (renumRequest new) s = (.ok, resp, t)) (n : Nat) (last : ResultCode) :
    renumAttempts old new (n + 1) last s = (.ok, t) := by
  rw [renumAttempts, ran]
  exact if_pos rfl

/-- RENUM_ID of a silent address gives up with NO_RESPONSE. -/
theorem renumAttempts_silent (old new : Addr) (n : Nat) : ∀ (last : ResultCode) (s : State), s.Silent old →
    (renumAttempts old new (n + 1) last s).1 = .noResponse := by
  induction n with
  | zero =>
    intro last s ⟨clean, laws, one, nobody⟩
    obtain ⟨resp, t, ran, -⟩ := command_silent clean laws one nobody (renumRequest new)
    rw [renumAttempts_failed ran nofun, renumAttempts]
  | succ n ih =>
    intro last s silent
    have ⟨clean, laws, one, nobody⟩ := silent
    obtain ⟨resp, t, ran, leaves⟩ := command_silent clean laws one nobody (renumRequest new)
    rw [renumAttempts_failed ran nofun]
    exact ih .noResponse t (silent_after_command silent leaves)

/-- The result an operation without a store reports. -/
theorem returned_result (body : State → ResultCode × State) (s : State) :
    (returned body s).master.result = some (body (lockMutex s)).1 := rfl

/-- What the master's receiver heard where nobody answers an operation's frame. -/
theorem nobody_locked {s : State} {a : Addr} (silent : s.Silent a) (c : MsgClass) (body : List Byte) (limit : Option Nat) :
    ∃ q, awaitReply limit
        (transmit (makeHeader c a :: headerCrc s.params (makeHeader c a) :: body) (lockMutex s)) = q ∧
      q.bus.stream.length = body.length + 3 := by
  obtain ⟨clean, laws, one, nobody⟩ := silent
  refine ⟨_, conversation_nobody (s := lockMutex s) body limit clean laws fun x member => .inl ?_, ?_⟩
  · rw [headerAddr_makeHeader]
    exact nobody x member
  · show (s.echo ++ _).length = _
    simp [echo_length one]
    omega

/-- Settles O49: every slave discards the frame at its header, so that the master hears its own frame alone. -/
theorem silentAddressGivesNoResponse : Obligations.SilentAddressGivesNoResponse := by
  intro s a ready clean laws one nobody
  have silent : s.Silent a := ⟨clean, laws, one, nobody⟩
  refine ⟨fun c payload data fits => ?send, fun c len buf data fits => ?receive, fun request out => ?command,
    fun new => ?renum⟩
  case send =>
    obtain ⟨q, talk, heard⟩ := nobody_locked silent c (payload ++ [payloadCrc s.params payload]) (some (payload.length + 5))
    rw [List.length_append, List.length_singleton] at heard
    obtain ⟨t, run, -, -, -, result⟩ := send_reports ready one data fits talk (by omega)
    exact ⟨t, run, result.trans (by rw [if_pos (by omega)])⟩
  case receive =>
    obtain ⟨q, talk, heard⟩ := nobody_locked silent c [] (some (len.toNat + 4))
    rw [List.length_nil] at heard
    obtain ⟨t, run, -, result, -⟩ := receive_reports (buf := buf) ready one data fits talk (by omega)
    exact ⟨t, run, result.trans (by rw [if_pos (by omega)])⟩
  case command =>
    obtain ⟨resp, t, ran, -⟩ := command_silent (s := lockMutex s) clean laws one nobody request
    refine ⟨_, exec_command a request out ready, ?_⟩
    rw [returned_result, commandBody, ran]
  case renum =>
    refine ⟨_, exec_renum a new ready, ?_⟩
    rw [returned_result, renumBody, show Config.renumRetries = 999 + 1 from rfl,
      renumAttempts_silent a new 999 .timeout (lockMutex s) silent]

/-! ## A healthy slave -/

theorem addressed_lock {s : State} {k : Nat} {sl : Slave} {a : Addr} (addressed : s.Addressed k sl a) :
    (lockMutex s).Addressed k sl a := addressed

/-- Settles O53: the first attempt is OK, the confirmation coming back as the response. -/
theorem healthyRenumberMovesTheSlave : Obligations.HealthyRenumberMovesTheSlave := by
  rintro s k sl old new h hc ready addressed one time rfl rfl
  have timeThen : (lockMutex s).TimeToRenumber := by
    rw [State.TimeToRenumber, lockMutex_timeoutUs]
    exact time
  obtain ⟨resp, t, ran, leaves⟩ := command_renum (addressed_lock addressed) one timeThen new
  have body : renumBody old new (lockMutex s) = (.ok, t) := by
    rw [renumBody, show Config.renumRetries = 999 + 1 from rfl, renumAttempts_ok ran]
  obtain ⟨slaves, -⟩ := commandLeaves_facts leaves
  refine ⟨_, exec_renum old new ready, ?_, ?_⟩
  · rw [returned_result, body]
  · rw [returned_slaves, body, slaves]
    rfl

end Sys2Proof.Machine
end

section
/-! SUPPORT. Two slaves that answer in the same slots (20 R76, 44 R279, 70 R405): the line carries the AND of their replies,
and neither notices. -/

namespace Sys2Proof.Machine

/-! ## Two slaves react -/

/-- Where every other slave is left alone, the slaves in the places `j` and `k` react one after the other. -/
theorem reactAll_two (h : Nat → Slave → Free → Reaction) {x y : Slave} : ∀ {l : List Slave} {j k : Nat} (i : Nat) (f : Free),
    j < k → l[j]? = some x → l[k]? = some y →
    (∀ m z g, l[m]? = some z → m ≠ j → m ≠ k → h (i + m) z g = .quiet z g) →
      reactAll h i l f =
        ((l.set j (h (i + j) x f).slave).set k (h (i + k) y (h (i + j) x f).free).slave,
          (h (i + k) y (h (i + j) x f).free).free,
          ((h (i + j) x f).tx.toList.map fun b => (i + j, b)) ++
            (h (i + k) y (h (i + j) x f).free).tx.toList.map fun b => (i + k, b))
  | [], _, _, _, _, _, at_j, _, _ => by simp at at_j
  | _ :: _, _, 0, _, _, low, _, _, _ => absurd low (Nat.not_lt_zero _)
  | z :: l, 0, k + 1, i, f, _, at_j, at_k, others => by
    obtain rfl : z = x := by simpa using at_j
    have tail := reactAll_at h (l := l) (k := k) (i + 1) (h i z f).free (by simpa using at_k) fun m w g at_m other => by
      have := others (m + 1) w g (by simpa using at_m) (by omega) (by omega)
      rwa [show i + (m + 1) = i + 1 + m by omega] at this
    simp only [reactAll, tail, List.set_cons_zero, List.set_cons_succ, Nat.add_zero,
      show i + 1 + k = i + (k + 1) by omega]
  | z :: l, j + 1, k + 1, i, f, low, at_j, at_k, others => by
    have head := others 0 z f (by simp) (by omega) (by omega)
    have tail := reactAll_two h (l := l) (j := j) (k := k) (i + 1) f (by omega) (by simpa using at_j) (by simpa using at_k)
      fun m w g at_m notJ notK => by
        have := others (m + 1) w g (by simpa using at_m) (by omega) (by omega)
        rwa [show i + (m + 1) = i + 1 + m by omega] at this
    rw [Nat.add_zero] at head
    simp only [reactAll, head, quiet_slave, quiet_free, quiet_tx, tail, List.set_cons_succ, Option.toList_none, List.map_nil,
      List.nil_append, show i + 1 + j = i + (j + 1) by omega, show i + 1 + k = i + (k + 1) by omega]

/-- Every slave of a list but those in the places `j` and `k` is deaf. -/
abbrev DeafButTwo (l : List Slave) (j k : Nat) : Prop :=
  j < k ∧ k < l.length ∧ ∀ (m : Nat) (z : Slave), l[m]? = some z → m ≠ j → m ≠ k → z.Deaf

/-- The system in the middle of a frame that two slaves take, now `x` and `y`, on an undisturbed bus. -/
def State.talkingTwo (s : State) (l : List Slave) (j k : Nat) (x y : Slave) (f : Free) (heard : List Byte)
    (out : List (Nat × Byte)) : State :=
  { s with
    slaves := (l.set j x).set k y
    free := f
    bus := { breakOn := false, inFlight := out, stream := heard, noise := [] } }

section
variable {s : State} {l : List Slave} {j k : Nat} {x y : Slave} {f : Free} {heard : List Byte} {out : List (Nat × Byte)}

theorem two_at (deaf : DeafButTwo l j k) : (s.talkingTwo l j k x y f heard out).slaves[j]? = some x ∧
    (s.talkingTwo l j k x y f heard out).slaves[k]? = some y := by
  obtain ⟨low, inside, -⟩ := deaf
  have lowJ : j < l.length := by omega
  constructor
  · simp [State.talkingTwo, Nat.ne_of_gt low, lowJ]
  · simp [State.talkingTwo, inside]

theorem two_other (deaf : DeafButTwo l j k) {m : Nat} {z : Slave}
    (at_m : (s.talkingTwo l j k x y f heard out).slaves[m]? = some z) (notJ : m ≠ j) (notK : m ≠ k) : z.Deaf := by
  have there : l[m]? = some z := by simpa [State.talkingTwo, Ne.symm notJ, Ne.symm notK] using at_m
  exact deaf.2.2 m z there notJ notK

/-- Only the two slaves react, where the handler leaves a deaf slave alone. -/
theorem two_react (deaf : DeafButTwo l j k) (h : Nat → Slave → Free → Reaction)
    (quiet : ∀ m z g, z.Deaf → h m z g = .quiet z g) {x' y' : Slave} {f' f'' : Free} {b c : Option Byte}
    (first : h j x f = ⟨x', f', b⟩) (second : h k y f' = ⟨y', f'', c⟩) :
    (s.talkingTwo l j k x y f heard out).react h =
      s.talkingTwo l j k x' y' f'' heard (out ++ ((b.toList.map fun b => (j, b)) ++ c.toList.map fun c => (k, c))) := by
  obtain ⟨at_j, at_k⟩ := two_at (s := s) (x := x) (y := y) (f := f) (heard := heard) (out := out) deaf
  have free : (s.talkingTwo l j k x y f heard out).free = f := rfl
  have all := reactAll_two h (i := 0) f deaf.1 at_j at_k fun m z g at_m notJ notK =>
    quiet _ z g (two_other deaf at_m notJ notK)
  simp only [Nat.zero_add, first, second] at all
  have places : (((l.set j x).set k y).set j x').set k y' = (l.set j x').set k y' := by
    rw [List.set_comm _ _ (Nat.ne_of_gt deaf.1), List.set_set, List.set_set]
  rw [State.react, free, all]
  simp only [State.talkingTwo, places]

theorem two_serve_silent (deaf : DeafButTwo l j k) (silentX : x.txEn = false) (silentY : y.txEn = false) :
    serveTxe (s.talkingTwo l j k x y f heard out) = s.talkingTwo l j k x y f heard out := by
  obtain ⟨at_j, at_k⟩ := two_at (s := s) (x := x) (y := y) (f := f) (heard := heard) (out := out) deaf
  refine serveTxe_idle fun z member => ?_
  obtain ⟨m, at_m⟩ := List.mem_iff_getElem?.1 member
  by_cases isJ : m = j
  · rw [isJ, at_j] at at_m
    rw [← Option.some.inj at_m, silentX]
  · by_cases isK : m = k
    · rw [isK, at_k] at at_m
      rw [← Option.some.inj at_m, silentY]
    · exact (two_other deaf at_m isJ isK).2

/-- A byte on the line reaches both slaves, and the master's receiver. -/
theorem two_deliver (deaf : DeafButTwo l j k) (b : Byte) {x' y' : Slave} {f' f'' : Free}
    (first : onRx s.params b x f = ⟨x', f', none⟩) (second : onRx s.params b y f' = ⟨y', f'', none⟩) :
    deliver b (s.talkingTwo l j k x y f heard []) = s.talkingTwo l j k x' y' f'' (heard ++ [b]) [] := by
  have unflipped : b ^^^ 0 = b := BitVec.xor_zero
  have carried : ((s.talkingTwo l j k x y f heard []).bus.noise.headD .clean).Carries := ⟨nofun, nofun⟩
  have line := deliver_eq (s := s.talkingTwo l j k x y f heard []) b carried
  have reacts := two_react (s := s) (heard := heard ++ [b]) (out := []) deaf (fun _ sl f => onRx s.params b sl f)
    (fun _ z g deaf => onRx_deaf _ _ deaf g) first second
  refine line.trans (Eq.trans ?_ reacts)
  show rxAll (b ^^^ 0) (State.hear [b ^^^ 0] _) = _
  rw [unflipped]
  rfl

/-- A slot with the master's byte, while both slaves listen. -/
theorem two_slot_master (deaf : DeafButTwo l j k) (b : Byte) (silentX : x.txEn = false) (silentY : y.txEn = false)
    {x' y' : Slave} {f' f'' : Free} (first : onRx s.params b x f = ⟨x', f', none⟩)
    (second : onRx s.params b y f' = ⟨y', f'', none⟩) :
    slot (some b) (s.talkingTwo l j k x y f heard []) = s.talkingTwo l j k x' y' f'' (heard ++ [b]) [] := by
  rw [slot, two_serve_silent deaf silentX silentY]
  exact two_deliver deaf b first second

/-- The bytes of a frame that both slaves take. -/
theorem two_sendBytes (deaf : DeafButTwo l j k) : ∀ {bs : List Byte} {x x' y y' : Slave} {heard : List Byte},
    Listens s.params bs x x' → Listens s.params bs y y' →
      sendBytes bs (s.talkingTwo l j k x y f heard []) = s.talkingTwo l j k x' y' f (heard ++ bs) []
  | [], _, _, _, _, heard, .done _, .done _ => by rw [sendBytes, List.append_nil]
  | b :: bs, _, _, _, _, heard, .byte silentX hearsX restX, .byte silentY hearsY restY => by
    rw [sendBytes, two_slot_master deaf b silentX silentY (hearsX f) (hearsY f), two_sendBytes deaf restX restY,
      List.append_assoc, List.singleton_append]

/-- A slot both slaves answer in: the line carries the AND of their bytes (20 R76). -/
theorem two_slot_reply (deaf : DeafButTwo l j k) (askedX : x.txEn = true) (askedY : y.txEn = true) {x' y' : Slave}
    {b c : Byte} (sendsX : ∀ f, onTxe s.params x f = ⟨x', f, some b⟩) (sendsY : ∀ f, onTxe s.params y f = ⟨y', f, some c⟩)
    (ignoresX : x'.Ignores s.params) (ignoresY : y'.Ignores s.params) :
    slot none (s.talkingTwo l j k x y f heard []) = s.talkingTwo l j k x' y' f (heard ++ [b &&& c]) [] := by
  have first : txeIfFree (s.talkingTwo l j k x y f heard []) j x f = ⟨x', f, some b⟩ := by
    simp [txeIfFree, askedX, State.talkingTwo, Bus.holds, sendsX]
  have second : txeIfFree (s.talkingTwo l j k x y f heard []) k y f = ⟨y', f, some c⟩ := by
    simp [txeIfFree, askedY, State.talkingTwo, Bus.holds, sendsY]
  have served : serveTxe (s.talkingTwo l j k x y f heard []) = s.talkingTwo l j k x' y' f heard [(j, b), (k, c)] :=
    two_react (out := []) deaf (fun i sl g => txeIfFree (s.talkingTwo l j k x y f heard []) i sl g)
      (fun _ z g deaf => by simp [txeIfFree, deaf.2]) first second
  have distinct : (((s.talkingTwo l j k x' y' f heard [(j, b), (k, c)]).bus.inFlight).map (·.1)).Nodup := by
    simp [State.talkingTwo, Nat.ne_of_lt deaf.1]
  have pending := pending_nodup distinct
  have queued := queued_nodup distinct
  rw [slot, served, pending]
  refine Eq.trans ?_ (two_deliver deaf (b &&& c) (ignoresX (b &&& c) f) (ignoresY (b &&& c) f))
  show deliver (b &&& c) _ = _
  rw [queued]
  rfl

theorem two_settled (deaf : DeafButTwo l j k) (deafX : x.Deaf) (deafY : y.Deaf) :
    settled (s.talkingTwo l j k x y f heard []) = true := by
  obtain ⟨at_j, at_k⟩ := two_at (s := s) (x := x) (y := y) (f := f) (heard := heard) (out := []) deaf
  have all : (s.talkingTwo l j k x y f heard []).slaves.all fun sl => !sl.txEn && sl.st ≠ .waitRenumTimer := by
    rw [List.all_eq_true]
    intro z member
    obtain ⟨m, at_m⟩ := List.mem_iff_getElem?.1 member
    obtain ⟨st, silent⟩ : z.Deaf := by
      by_cases isJ : m = j
      · rw [isJ, at_j] at at_m
        exact Option.some.inj at_m ▸ deafX
      · by_cases isK : m = k
        · rw [isK, at_k] at at_m
          exact Option.some.inj at_m ▸ deafY
        · exact two_other deaf at_m isJ isK
    simp [st, silent]
  simp only [settled, all]
  rfl

theorem two_moves (deaf : DeafButTwo l j k) (asked : x.txEn = true) :
    settled (s.talkingTwo l j k x y f heard []) = false ∧
      turnCost (s.talkingTwo l j k x y f heard []) = charTimeUs s.params := by
  obtain ⟨at_j, -⟩ := two_at (s := s) (x := x) (y := y) (f := f) (heard := heard) (out := []) deaf
  have member := List.mem_iff_getElem?.2 ⟨j, at_j⟩
  constructor
  · have notAll : ((s.talkingTwo l j k x y f heard []).slaves.all
        fun sl => !sl.txEn && sl.st ≠ .waitRenumTimer) = false := by
      rw [List.all_eq_false]
      exact ⟨x, member, by simp [asked]⟩
    rw [settled, notAll, Bool.and_false]
  · have any : (s.talkingTwo l j k x y f heard []).slaves.any (·.txEn) = true := by
      rw [List.any_eq_true]
      exact ⟨x, member, asked⟩
    simp only [turnCost, any, Bool.or_true, if_true]
    rfl

/-- While the master waits both slaves reply, and fall silent. -/
theorem two_reply (deaf : DeafButTwo l j k) {limit : Option Nat} {bs : List Byte} {x x' : Slave}
    (repliesX : Replies s.params bs x x') (deafX : x'.Deaf) : ∀ {cs : List Byte} {y y' : Slave} {heard : List Byte}
    {fuel time : Nat}, Replies s.params cs y y' → bs.length = cs.length → y'.Deaf →
      NotBefore limit (heard.length + bs.length) → bs.length * charTimeUs s.params ≤ time → time ≤ fuel →
        await limit fuel time (s.talkingTwo l j k x y f heard []) =
          s.talkingTwo l j k x' y' f (heard ++ List.zipWith (· &&& ·) bs cs) [] := by
  induction repliesX with
  | done x =>
    intro cs y y' heard fuel time repliesY same deafY _ _ _
    cases repliesY with
    | done => rw [await_settled _ _ _ _ (two_settled deaf deafX deafY), List.zipWith_nil_left, List.append_nil]
    | byte => cases same
  | @byte b bs x u x' askedX sendsX ignoresX restX ih =>
    intro cs y y' heard fuel time repliesY same deafY low inTime fuelled
    cases repliesY with
    | done => cases same
    | @byte c cs _ v _ askedY sendsY ignoresY restY =>
      obtain ⟨moves, cost⟩ := two_moves (s := s) (y := y) (f := f) (heard := heard) deaf askedX
      have char := charTimeUs_pos s.params
      simp only [List.length_cons, Nat.succ_mul] at inTime low same
      have rest := ih deafX (heard := heard ++ [b &&& c]) (fuel := fuel - 1) (time := time - charTimeUs s.params) restY
        (by omega) deafY (by simpa [Nat.add_assoc, Nat.add_comm 1] using low) (by omega) (by omega)
      rw [await_turn (enough_eq_false low (by show heard.length < _; omega)) moves (by omega) (by omega), cost]
      have turn : busTurn (s.talkingTwo l j k x y f heard []) = s.talkingTwo l j k u v f (heard ++ [b &&& c]) [] :=
        two_slot_reply deaf askedX askedY sendsX sendsY ignoresX ignoresY
      rw [turn, rest, List.append_assoc]
      rfl

end

/-! ## PROBE of an address that two slaves share (44 R271) -/

theorem sendBytes_append : ∀ (bs cs : List Byte) (s : State), sendBytes (bs ++ cs) s = sendBytes cs (sendBytes bs s)
  | [], _, _ => rfl
  | b :: bs, cs, s => by rw [List.cons_append, sendBytes, sendBytes_append bs cs, sendBytes]

section
variable {s : State} {j k : Nat} {x y : Slave} {a : Addr} {h hc : Byte}

/-- The slaves in the places `j` and `k` and nobody else live at `a`. -/
abbrev State.SharedBy (s : State) (j k : Nat) (x y : Slave) (a : Addr) : Prop :=
  j < k ∧ s.slaves[j]? = some x ∧ s.slaves[k]? = some y ∧
  ∀ (i : Nat) (sl : Slave), s.slaves[i]? = some sl → (sl.ownAddr = a ↔ i = j ∨ i = k)

theorem shared_deaf (shared : s.SharedBy j k x y a) : DeafButTwo (s.slaves.map (Slave.discarded s.params h hc)) j k := by
  obtain ⟨low, -, at_k, -⟩ := shared
  refine ⟨low, by simpa using (List.getElem?_eq_some_iff.1 at_k).1, fun m z at_m _ _ => ?_⟩
  obtain ⟨w, -, rfl⟩ := List.mem_map.1 (List.mem_of_getElem? at_m)
  exact discarded_deaf s.params h hc w

/-- After the header two slaves want the frame, the others discarded it. -/
theorem headed_shared (shared : s.SharedBy j k x y a) (laws : CrcLaws s.params) (header : headerAddr h = a) :
    s.slaves.map (Slave.headed s.params h hc) =
      ((s.slaves.map (Slave.discarded s.params h hc)).set j (x.headed s.params h hc)).set k (y.headed s.params h hc) := by
  obtain ⟨low, at_j, at_k, only⟩ := shared
  have inside := (List.getElem?_eq_some_iff.1 at_k).1
  refine List.ext_getElem? fun m => ?_
  rw [List.getElem?_set, List.length_set, List.length_map, List.getElem?_set, List.length_map, List.getElem?_map,
    List.getElem?_map]
  by_cases isK : k = m
  · subst isK
    rw [if_pos rfl, if_pos inside, at_k]
    rfl
  · rw [if_neg isK]
    by_cases isJ : j = m
    · subst isJ
      rw [if_pos rfl, if_pos (low.trans inside), at_j]
      rfl
    · rw [if_neg isJ]
      cases at_m : s.slaves[m]? with
      | none => rfl
      | some z =>
        have elsewhere : z.ownAddr ≠ headerAddr h := by
          rw [header, Ne, only m z at_m]
          omega
        exact congrArg some (headed_foreign laws (.inl elsewhere))

/-- A command frame that two slaves take up to its CRC byte. -/
theorem shared_request (shared : s.SharedBy j k x y a) (clean : s.CleanBus) (laws : CrcLaws s.params)
    (header : headerAddr h = a) (cmd : headerClass h = Config.cmdClass) (request : Vector Byte 5) (crc : Byte) :
    transmit (h :: headerCrc s.params h :: (request.toList ++ [crc])) s =
      slot (some crc) (s.talkingTwo (s.slaves.map (Slave.discarded s.params h (headerCrc s.params h))) j k
        (x.commanded s.params h request) (y.commanded s.params h request) s.freeAfterEcho
        (s.echo ++ [h, headerCrc s.params h] ++ request.toList) []) := by
  have deaf := shared_deaf (h := h) (hc := headerCrc s.params h) shared
  have headed := headed_shared (hc := headerCrc s.params h) shared laws header
  obtain ⟨-, at_j, at_k, only⟩ := shared
  obtain ⟨empty, quiet⟩ := clean
  have ownX : headerAddr h = x.ownAddr := header.trans ((only j x at_j).2 (.inl rfl)).symm
  have ownY : headerAddr h = y.ownAddr := header.trans ((only k y at_k).2 (.inr rfl)).symm
  have start : s.hearing (s.slaves.map (Slave.headed s.params h (headerCrc s.params h)))
      (s.echo ++ [h, headerCrc s.params h]) [] =
        s.talkingTwo (s.slaves.map (Slave.discarded s.params h (headerCrc s.params h))) j k
          (x.headed s.params h (headerCrc s.params h)) (y.headed s.params h (headerCrc s.params h)) s.freeAfterEcho
          (s.echo ++ [h, headerCrc s.params h]) [] := by
    rw [headed]
    rfl
  rw [header_eq ⟨empty, .inl quiet⟩, quiet, List.drop_nil, start, sendBytes_append,
    two_sendBytes deaf (listens_request laws ownX cmd request) (listens_request laws ownY cmd request)]
  rfl

/-- The whole of a PROBE of a shared address. -/
theorem shared_probe (shared : s.SharedBy j k x y a) (clean : s.CleanBus) (laws : CrcLaws s.params)
    (header : headerAddr h = a) (cmd : headerClass h = Config.cmdClass) {request : Vector Byte 5}
    (sub : request[0] = Config.subProbe) {f g : List Byte} {free free' : Free}
    (drawnX : Free.drawList 5 s.freeAfterEcho = (f, free)) (drawnY : Free.drawList 5 free = (g, free'))
    (time : s.TimeFor 6) {limit : Option Nat} (low : NotBefore limit (s.echo.length + 14)) :
    awaitReply limit (transmit (h :: headerCrc s.params h :: (request.toList ++ [payloadCrc s.params request.toList])) s) =
      s.talkingTwo (s.slaves.map (Slave.discarded s.params h (headerCrc s.params h))) j k
        (x.responded s.params h request (fiveOf f) []) (y.responded s.params h request (fiveOf g) []) free'
        (s.echo ++ [h, headerCrc s.params h] ++ request.toList ++ [payloadCrc s.params request.toList] ++
          List.zipWith (· &&& ·) (f ++ [payloadCrc s.params f]) (g ++ [payloadCrc s.params g])) [] := by
  have deaf := shared_deaf (h := h) (hc := headerCrc s.params h) shared
  obtain ⟨fiveX, lengthX⟩ := fiveOf_drawn drawnX
  obtain ⟨fiveY, lengthY⟩ := fiveOf_drawn drawnY
  rw [shared_request shared clean laws header cmd,
    two_slot_master deaf _ (commanded_silent request) (commanded_silent request)
      (commanded_probe laws sub drawnX) (commanded_probe laws sub drawnY)]
  have repliesX := replies_probe (p := s.params) (h := h) (sl := x) request (fiveOf f)
  have repliesY := replies_probe (p := s.params) (h := h) (sl := y) request (fiveOf g)
  rw [fiveX] at repliesX
  rw [fiveY] at repliesY
  refine two_reply deaf repliesX (responded_deaf _ _ _) repliesY (by simp [lengthX, lengthY]) (responded_deaf _ _ _)
    (fun e he => ?_) ?_ (Nat.le_refl _)
  · have := low e he
    simp [lengthX]
    omega
  · rw [show (f ++ [payloadCrc s.params f]).length = 6 by simp [lengthX]]
    exact time

end

theorem commandBody_of_command {s t : State} {a : Addr} {request resp : Vector Byte 5} {code : ResultCode} (out : BufRef)
    (ran : command a request s = (code, resp, t)) :
    (commandBody a request out s).1 = code ∧ (commandBody a request out s).2.slaves = t.slaves ∧
      (commandBody a request out s).2.master = t.master ∧
      (code = .ok → (commandBody a request out s).2.mem = Memory.store out.toNat resp.toList t.mem) := by
  rw [commandBody, ran]
  refine ⟨rfl, ?_, ?_, fun ok => ?_⟩
  · by_cases ok : code = .ok <;> simp only [ok, if_true, if_false] <;> rfl
  · by_cases ok : code = .ok <;> simp only [ok, if_true, if_false] <;> rfl
  · simp only [ok, if_true]
    rfl

theorem set_self {α : Type} {l : List α} {i : Nat} {x : α} (at_i : l[i]? = some x) : l.set i x = l := by
  obtain ⟨low, rfl⟩ := List.getElem?_eq_some_iff.1 at_i
  exact List.set_getElem_self low

theorem timeFor_lock {s : State} {n : Nat} (time : s.TimeFor n) : (lockMutex s).TimeFor n := by
  rw [State.TimeFor, lockMutex_timeoutUs]
  exact time

/-- A slave as it is found after a frame that left its addresses alone. -/
def Slave.idlePlace (sl : Slave) : SlaveState × Addr × Addr := (.waitBreak, sl.ownAddr, sl.eepromAddr)

theorem idlePlace_onBreak (sl : Slave) :
    (SlaveState.waitBreak, sl.onBreak.ownAddr, sl.onBreak.eepromAddr) = sl.idlePlace := by
  rw [onBreak_ownAddr, onBreak_eepromAddr, Slave.idlePlace]

/-- Every slave is found idle at its addresses, the two that replied too. -/
theorem shared_places {s : State} {j k : Nat} {x y x' y' : Slave} (h c : Byte) (at_j : s.slaves[j]? = some x)
    (at_k : s.slaves[k]? = some y) (placeX : (x'.st, x'.ownAddr, x'.eepromAddr) = x.idlePlace)
    (placeY : (y'.st, y'.ownAddr, y'.eepromAddr) = y.idlePlace) :
    (((s.slaves.map (Slave.discarded s.params h c)).set j x').set k y').map (fun sl => (sl.st, sl.ownAddr, sl.eepromAddr)) =
      s.slaves.map Slave.idlePlace := by
  have atJ : (s.slaves.map Slave.idlePlace)[j]? = some x.idlePlace := by rw [List.getElem?_map, at_j]; rfl
  have atK : (s.slaves.map Slave.idlePlace)[k]? = some y.idlePlace := by rw [List.getElem?_map, at_k]; rfl
  have discarded : (fun sl : Slave => (sl.st, sl.ownAddr, sl.eepromAddr)) ∘ Slave.discarded s.params h c =
      Slave.idlePlace := funext idlePlace_onBreak
  rw [List.map_set, List.map_set, List.map_map, discarded, placeX, placeY, set_self atJ, set_self atK]

/-- The PROBE of a shared address as the master's operation makes it. -/
theorem shared_probe_locked {s : State} {j k : Nat} {x y : Slave} {a : Addr} {f g line : List Byte} {free : Free}
    (shared : s.SharedBy j k x y a) (clean : s.CleanBus) (laws : CrcLaws s.params) (one : OneEcho s.params)
    (time : s.TimeFor 6) (drawnX : Free.drawList 5 s.freeAfterEcho = (f, free)) (drawnY : g = (Free.drawList 5 free).1)
    (lineEq : line = List.zipWith (· &&& ·) (f ++ [payloadCrc s.params f]) (g ++ [payloadCrc s.params g])) :
    ∃ q, awaitReply (some 15) (transmit (buildCmdFrame s.params a probeRequest) (lockMutex s)) = q ∧
      q.slaves = ((s.slaves.map (Slave.discarded s.params (makeHeader 7 a) (headerCrc s.params (makeHeader 7 a)))).set j
        (x.responded s.params (makeHeader 7 a) probeRequest (fiveOf f) [])).set k
        (y.responded s.params (makeHeader 7 a) probeRequest (fiveOf g) []) ∧
      q.bus.stream = s.echo ++ buildCmdFrame s.params a probeRequest ++ line ∧ line.length = 6 := by
  obtain ⟨address, cmd⟩ := command_header a
  obtain ⟨free', drawnY⟩ : ∃ free', Free.drawList 5 free = (g, free') := ⟨_, Prod.ext drawnY.symm rfl⟩
  obtain ⟨-, lengthX⟩ := fiveOf_drawn drawnX
  obtain ⟨-, lengthY⟩ := fiveOf_drawn drawnY
  have talk := shared_probe (s := lockMutex s) (h := makeHeader 7 a) (request := probeRequest) (limit := some 15)
    shared clean laws address cmd rfl drawnX drawnY (timeFor_lock time)
    (fun e he => by cases he; simp [echo_length (s := lockMutex s) one])
  refine ⟨_, talk, rfl, ?_, by simp [lineEq, lengthX, lengthY]⟩
  rw [lineEq]
  simp [State.talkingTwo, buildCmdFrame_eq]
  rfl

/-- Settles O52: INQUIRE of one slave, then PROBE of two. -/
theorem healthyInquireReturnsTheIdentity : Obligations.HealthyInquireReturnsTheIdentity := by
  refine ⟨?inquire, ?probe⟩
  case inquire =>
    intro s k sl a out ready addressed wf one time
    obtain ⟨btn, t, ran, leaves⟩ := command_inquire (addressed_lock addressed) one (timeFor_lock time)
    obtain ⟨code, -, -, stored⟩ := commandBody_of_command out ran
    refine ⟨_, btn, exec_command a inquireRequest out ready, ?_, ?_⟩
    · rw [returned_result, code]
    · have mem : t.mem = s.mem := by
        obtain ⟨free, heard, rfl⟩ := leaves
        rfl
      have back := load_store out.toNat (vs := (encodeInquire sl.devType sl.fwVer sl.hwRev btn).toList) wf
      rw [Vector.length_toList] at back
      rw [returned_mem, stored rfl, mem, back]
  case probe =>
    intro s j k x y a out f g line free ready clean laws one time low at_j at_k only drawnX drawnY lineEq
    obtain ⟨q, talk, slaves, stream, count⟩ :=
      shared_probe_locked ⟨low, at_j, at_k, only⟩ clean laws one time drawnX drawnY lineEq
    have width : (s.echo ++ buildCmdFrame s.params a probeRequest).length = 9 := by
      simp [echo_length one, buildCmdFrame, headerBytes]
    have whole : q.bus.stream.length = 15 := by rw [stream, List.length_append, width, count]
    have window : q.bus.stream.drop 9 = line := by rw [stream, ← width, List.drop_left]
    have params : (lockMutex s).params = s.params := rfl
    have ran := command_reports (s := lockMutex s) one talk (by omega)
    rw [params] at ran
    obtain ⟨code, slavesThen, registers, -⟩ := commandBody_of_command out ran
    have heard : (keepExchange (buildCmdFrame s.params a probeRequest) 15 q).master.rxbuf = q.bus.stream :=
      List.take_of_length_le (by omega)
    refine ⟨_, exec_command a probeRequest out ready, ?_, ?_, ?_⟩
    · rw [returned_master (commandBody_move a probeRequest out (lockMutex s)), registers]
      exact heard.trans stream
    · rw [returned_result, code, if_neg (by omega), if_neg (by omega), window]
      cases payloadOk s.params line <;> rfl
    · have there : (keepExchange (buildCmdFrame s.params a probeRequest) 15 q).slaves = q.slaves := rfl
      rw [returned_slaves, slavesThen, there, slaves]
      exact shared_places _ _ at_j at_k (idlePlace_onBreak x) (idlePlace_onBreak y)

end Sys2Proof.Machine
end

section
/-! SUPPORT. CHECK_CONFIG and AUTO_CONFIG over a network whose slaves keep their addresses (42 R190, R191; 43 R232, R236). -/

namespace Sys2Proof.Machine

/-! ## The network between two commands -/

/-- Where a slave lives and what it is. -/
def Slave.placed (sl : Slave) : Addr × Word16 := (sl.ownAddr, sl.devType)

/-- The same slaves at the same addresses, on a bus that carries frames unharmed. -/
abbrev SameNet (s t : State) : Prop :=
  t.CleanBus ∧ t.params = s.params ∧ t.master.timeoutUs = s.master.timeoutUs ∧
  t.slaves.map Slave.placed = s.slaves.map Slave.placed

theorem SameNet.trans {s t u : State} (h : SameNet s t) (k : SameNet t u) : SameNet s u := by
  obtain ⟨-, params, timeout, slaves⟩ := h
  obtain ⟨clean, params', timeout', slaves'⟩ := k
  exact ⟨clean, params'.trans params, timeout'.trans timeout, slaves'.trans slaves⟩

theorem onBreak_placed (sl : Slave) : (sl.onBreak.ownAddr, sl.onBreak.devType) = sl.placed := by
  rw [onBreak_ownAddr, (onBreak_identity sl).1, Slave.placed]

theorem discarded_placed (p : Params) (h c : Byte) (l : List Slave) :
    (l.map (Slave.discarded p h c)).map Slave.placed = l.map Slave.placed := by
  rw [List.map_map]
  exact List.map_congr_left fun sl _ => onBreak_placed sl

theorem othersDiscard_placed {s : State} {k : Nat} {sl x : Slave} (h c : Byte) (at_k : s.slaves[k]? = some sl)
    (same : x.placed = sl.placed) : (s.othersDiscard h c k x).map Slave.placed = s.slaves.map Slave.placed := by
  have there : (s.slaves.map Slave.placed)[k]? = some sl.placed := by rw [List.getElem?_map, at_k]; rfl
  rw [State.othersDiscard, List.map_set, discarded_placed, same, set_self there]

theorem sameNet_of_leaves {s t : State} {a : Addr} {request : Vector Byte 5} {slaves : List Slave}
    (leaves : s.CommandLeaves a request slaves t) (placed : slaves.map Slave.placed = s.slaves.map Slave.placed) :
    SameNet s t := by
  obtain ⟨same, clean, params, timeout⟩ := commandLeaves_facts leaves
  exact ⟨clean, params, timeout, by rw [same]; exact placed⟩

/-- A slave of the one network is there in the other. -/
theorem sameNet_at {s t : State} (net : SameNet s t) {k : Nat} {sl : Slave} (at_k : s.slaves[k]? = some sl) :
    ∃ x, t.slaves[k]? = some x ∧ x.placed = sl.placed := by
  obtain ⟨-, -, -, slaves⟩ := net
  have here := congrArg (·[k]?) slaves
  simp only [List.getElem?_map, at_k, Option.map_some] at here
  exact Option.map_eq_some_iff.1 here

theorem sameNet_symm {s t : State} (clean : s.CleanBus) (net : SameNet s t) : SameNet t s := by
  obtain ⟨-, params, timeout, slaves⟩ := net
  exact ⟨clean, params.symm, timeout.symm, slaves.symm⟩

theorem sameNet_addressed {s t : State} (net : SameNet s t) {k : Nat} {sl : Slave} {a : Addr}
    (addressed : s.Addressed k sl a) : ∃ x, t.Addressed k x a ∧ x.devType = sl.devType := by
  obtain ⟨at_k, own, others, clean, laws⟩ := addressed
  obtain ⟨x, there, same⟩ := sameNet_at net at_k
  obtain ⟨address, devType⟩ := Prod.mk.inj same
  refine ⟨x, ⟨there, address.trans own, fun j other at_j notK => ?_, net.1, net.2.1 ▸ laws⟩, devType⟩
  obtain ⟨y, before, same'⟩ := sameNet_at (sameNet_symm clean net) at_j
  obtain ⟨address', -⟩ := Prod.mk.inj same'
  exact address' ▸ others j y before notK

theorem sameNet_silent {s t : State} (net : SameNet s t) {a : Addr} (silent : s.Silent a) : t.Silent a := by
  obtain ⟨clean, laws, one, nobody⟩ := silent
  refine ⟨net.1, net.2.1 ▸ laws, net.2.1 ▸ one, fun x member => ?_⟩
  obtain ⟨j, at_j⟩ := List.mem_iff_getElem?.1 member
  obtain ⟨y, before, same⟩ := sameNet_at (sameNet_symm clean net) at_j
  obtain ⟨address, -⟩ := Prod.mk.inj same
  exact address ▸ nobody y (List.mem_of_getElem? before)

/-! ## PROBE, then INQUIRE (42 R191) -/

/-- A slave that answers reports its type. -/
theorem probeInquire_answered {s : State} {k : Nat} {sl : Slave} {a : Addr} (addressed : s.Addressed k sl a)
    (one : OneEcho s.params) (time : s.TimeFor 6) :
    ∃ t, probeInquire a s = (.ok, sl.devType, t) ∧ SameNet s t := by
  obtain ⟨resp, q, probed, leaves⟩ := command_probe addressed one time
  have net := sameNet_of_leaves leaves (othersDiscard_placed _ _ addressed.1 (onBreak_placed sl))
  obtain ⟨x, addressedThen, devType⟩ := sameNet_addressed net addressed
  have ⟨_, params, timeout, _⟩ := net
  obtain ⟨btn, t, asked, leavesThen⟩ := command_inquire addressedThen (params ▸ one)
    (by rw [State.TimeFor, params, timeout]; exact time)
  have netThen := sameNet_of_leaves leavesThen (othersDiscard_placed _ _ addressedThen.1 (onBreak_placed x))
  refine ⟨t, ?_, net.trans netThen⟩
  obtain ⟨type, -⟩ := inquire_encodeInquire x.devType x.fwVer x.hwRev btn
  simp only [probeInquire, probed, if_true, asked]
  rw [type, devType]

/-- A silent address does not answer the PROBE. -/
theorem probeInquire_silent {s : State} {a : Addr} (silent : s.Silent a) :
    ∃ t, probeInquire a s = (.noResponse, 0, t) ∧ SameNet s t := by
  obtain ⟨clean, laws, one, nobody⟩ := silent
  obtain ⟨resp, t, probed, leaves⟩ := command_silent clean laws one nobody probeRequest
  refine ⟨t, ?_, sameNet_of_leaves leaves (discarded_placed _ _ _ _)⟩
  rw [probeInquire, probed]
  rfl

/-! ## CHECK_CONFIG (42 R190) -/

theorem checkAddrs_answered {a : Addr} {as : List Addr} {s t : State} {ty : Word16} (valid : (s.master.decl a).valid = true)
    (asked : probeInquire a s = (.ok, ty, t)) :
    checkAddrs (a :: as) s =
      if ty ≠ (s.master.decl a).devType then (.typeConflict, setFailed a t) else checkAddrs as t := by
  rw [checkAddrs, if_pos valid, asked]
  exact if_neg (not_not.2 rfl)

theorem checkAddrs_unanswered {a : Addr} {as : List Addr} {s t : State} {ty : Word16} {code : ResultCode}
    (valid : (s.master.decl a).valid = true) (asked : probeInquire a s = (code, ty, t)) (failed : code ≠ .ok) :
    checkAddrs (a :: as) s = (code, setFailed a t) := by
  rw [checkAddrs, if_pos valid, asked]
  exact if_pos failed

theorem checkAddrs_undeclared {a : Addr} {as : List Addr} {s : State} (undeclared : ¬(s.master.decl a).valid = true) :
    checkAddrs (a :: as) s = checkAddrs as s := by
  rw [checkAddrs, if_neg undeclared]

/-- What CHECK_CONFIG asks of the bus and the slaves (42 R190). -/
abbrev State.Asks (s : State) : Prop := s.CleanBus ∧ CrcLaws s.params ∧ OneEcho s.params ∧ s.TimeFor 6

theorem sameNet_asks {s t : State} (net : SameNet s t) (asks : s.Asks) : t.Asks := by
  obtain ⟨clean, params, timeout, -⟩ := net
  obtain ⟨-, laws, one, time⟩ := asks
  refine ⟨clean, params ▸ laws, params ▸ one, ?_⟩
  rw [State.TimeFor, params, timeout]
  exact time

/-- A declared address that fits its declaration. -/
abbrev State.Fits (s : State) (a : Addr) : Prop := (s.master.decl a).valid = true → s.Agrees a

theorem sameNet_fits {s t : State} (net : SameNet s t) (dir : t.master.dir = s.master.dir) {a : Addr} (fits : s.Fits a) :
    t.Fits a := by
  intro valid
  rw [decl_of_dir dir] at valid
  obtain ⟨k, sl, addressed, same⟩ := fits valid
  obtain ⟨x, there, devType⟩ := sameNet_addressed net addressed
  exact ⟨k, x, there, by rw [decl_of_dir dir, devType, same]⟩

/-- Addresses that fit their declarations are passed over: the rest is asked on a like network. -/
theorem checkAddrs_fits (rest : List Addr) : ∀ (as : List Addr) (s : State), s.Asks → (∀ a ∈ as, s.Fits a) →
    ∃ t, checkAddrs (as ++ rest) s = checkAddrs rest t ∧ SameNet s t ∧ t.master.dir = s.master.dir ∧
      t.master.failedAddress = s.master.failedAddress
  | [], s, asks, _ => ⟨s, rfl, ⟨asks.1, rfl, rfl, rfl⟩, rfl, rfl⟩
  | a :: as, s, asks, fit => by
    have later := fun b member => fit b (List.mem_cons_of_mem a member)
    by_cases valid : (s.master.decl a).valid = true
    · obtain ⟨k, sl, addressed, same⟩ := fit a List.mem_cons_self valid
      obtain ⟨q, asked, net⟩ := probeInquire_answered addressed asks.2.2.1 asks.2.2.2
      have moved := probeInquire_move a s
      rw [asked] at moved
      obtain ⟨t, run, netThen, dir, failed⟩ := checkAddrs_fits rest as q (sameNet_asks net asks)
        fun b member => sameNet_fits net moved.dir (later b member)
      refine ⟨t, ?_, net.trans netThen, dir.trans moved.dir, failed.trans (by rw [moved.master])⟩
      rw [List.cons_append, checkAddrs_answered valid asked, if_neg (not_not.2 same), run]
    · obtain ⟨t, run, rest⟩ := checkAddrs_fits rest as s asks later
      exact ⟨t, by rw [List.cons_append, checkAddrs_undeclared valid, run], rest⟩

/-- The usable addresses up to one of them. -/
theorem usableAddrs_split {a : Addr} (usable : Usable a) :
    ∃ before after, usableAddrs = before ++ a :: after ∧ ∀ b ∈ before, b < a ∧ Usable b := by
  obtain ⟨before, after, split⟩ := List.append_of_mem (mem_usableAddrs.2 usable)
  have ascending := usableAddrs_ascending
  rw [split, List.pairwise_append] at ascending
  obtain ⟨-, -, below⟩ := ascending
  refine ⟨before, after, split, fun b member => ⟨below b member a List.mem_cons_self, ?_⟩⟩
  exact mem_usableAddrs.1 (by rw [split]; exact List.mem_append_left _ member)

/-- Settles O54: addresses that fit are passed over on a like network, up to the first that does not. -/
theorem checkConfigComparesTheType : Obligations.CheckConfigComparesTheType := by
  intro s ready clean laws one time
  have asks : (lockMutex s).Asks := ⟨clean, laws, one, timeFor_lock time⟩
  have decls : ∀ a, (lockMutex s).master.decl a = s.master.decl a := decl_of_dir (lockMutex_dir s)
  have fits : ∀ a, ((s.master.decl a).valid = true → s.Agrees a) → (lockMutex s).Fits a := by
    intro a agrees valid
    rw [decls] at valid
    obtain ⟨k, sl, addressed, same⟩ := agrees valid
    exact ⟨k, sl, addressed_lock addressed, by rw [decls]; exact same⟩
  refine ⟨fun agree => ?all, fun a usable valid agree => ?first⟩
  case all =>
    obtain ⟨t, run, -, -, failed⟩ := checkAddrs_fits [] usableAddrs (lockMutex s) asks
      fun a member => fits a (agree a (mem_usableAddrs.1 member))
    rw [List.append_nil] at run
    have body : checkConfigBody (lockMutex s) = (.ok, t) := run
    refine ⟨_, exec_check ready, by rw [returned_result, body], ?_⟩
    rw [returned, body]
    exact (unlockMutex_failedAddress t).trans (failed.trans (lockMutex_failedAddress s))
  case first =>
    obtain ⟨before, after, split, below⟩ := usableAddrs_split usable
    obtain ⟨q, run, net, dir, -⟩ := checkAddrs_fits (a :: after) before (lockMutex s) asks
      fun b member => fits b (agree b (below b member).1 (below b member).2)
    rw [← split] at run
    have validThen : (q.master.decl a).valid = true := by rw [decl_of_dir dir, decls]; exact valid
    have reports : ∀ {code : ResultCode} {t : State}, checkAddrs (a :: after) q = (code, setFailed a t) →
        ∃ t', exec .checkConfig s = .next t' ∧ t'.master.result = some code ∧ t'.master.failedAddress = a := by
      intro code t fails
      have body : checkConfigBody (lockMutex s) = (code, setFailed a t) := run.trans fails
      refine ⟨_, exec_check ready, by rw [returned_result, body], ?_⟩
      rw [returned, body]
      exact unlockMutex_failedAddress (setFailed a t)
    obtain ⟨-, -, oneThen, timeThen⟩ := sameNet_asks net asks
    constructor
    · intro k sl addressed differs
      obtain ⟨x, there, devType⟩ := sameNet_addressed net (addressed_lock addressed)
      obtain ⟨t, asked, -⟩ := probeInquire_answered there oneThen timeThen
      refine reports (t := t) ?_
      rw [checkAddrs_answered validThen asked, if_pos]
      rw [devType, decl_of_dir dir, decls]
      exact differs
    · intro nobody
      obtain ⟨t, asked, -⟩ := probeInquire_silent (sameNet_silent net ⟨clean, laws, one, nobody⟩)
      exact reports (checkAddrs_unanswered validThen asked nofun)

end Sys2Proof.Machine
end

section
/-! SUPPORT. AUTO_CONFIG where nobody answers (43 R232, R236). -/

namespace Sys2Proof.Machine

/-! ## The scan of silent addresses (43 R232) -/

/-- What scanning silent addresses leaves: the network, the flags, and every result as it was or no-response. -/
structure FoundNobody (s t : State) : Prop where
  net : SameNet s t
  renumbered : t.master.renumbered = s.master.renumbered
  swapped : t.master.swapped = s.master.swapped
  results : ∀ b, t.master.resOf b = s.master.resOf b ∨ t.master.resOf b = .noResponse

theorem FoundNobody.refl {s : State} (clean : s.CleanBus) : FoundNobody s s where
  net := ⟨clean, rfl, rfl, rfl⟩
  renumbered := rfl
  swapped := rfl
  results _ := .inl rfl

theorem FoundNobody.trans {s t u : State} (h : FoundNobody s t) (k : FoundNobody t u) : FoundNobody s u where
  net := h.net.trans k.net
  renumbered := k.renumbered.trans h.renumbered
  swapped := k.swapped.trans h.swapped
  results b := (k.results b).elim (fun same => same ▸ h.results b) .inr

theorem asked_foundNobody {s : State} {a : Addr} (silent : s.Silent a) :
    FoundNobody s ((probeInquire a s).2.2.updMaster (Master.record a (probeInquire a s).1 (probeInquire a s).2.1)) := by
  have moved := probeInquire_move a s
  obtain ⟨t, asked, net⟩ := probeInquire_silent silent
  rw [asked] at moved ⊢
  have kept : ∀ b, t.master.resOf b = s.master.resOf b := fun b => by rw [moved.master]; rfl
  have recorded : ∀ b, (t.master.setRes a .noResponse).resOf b = if b = a then .noResponse else s.master.resOf b :=
    fun b => by rw [resOf_setRes, kept]
  have renumbered : t.master.renumbered = s.master.renumbered := by rw [moved.master]
  have swapped : t.master.swapped = s.master.swapped := by rw [moved.master]
  exact {
    net := net, renumbered := renumbered, swapped := swapped
    results := fun b => by
      show (t.master.setRes a .noResponse).resOf b = _ ∨ (t.master.setRes a .noResponse).resOf b = _
      rw [recorded]
      by_cases here : b = a
      · exact .inr (if_pos here)
      · exact .inl (if_neg here) }

theorem scanAddr_foundNobody {s : State} {a : Addr} (silent : s.Silent a) : FoundNobody s (scanAddr s a) := by
  unfold scanAddr
  split
  · exact .refl silent.1
  · exact .refl silent.1
  · exact asked_foundNobody silent
  · exact asked_foundNobody silent

theorem scanList_foundNobody : ∀ (as : List Addr) {s : State}, s.CleanBus → (∀ a ∈ as, s.Silent a) →
    FoundNobody s (as.foldl scanAddr s)
  | [], _, clean, _ => .refl clean
  | a :: as, s, _, silent => by
    have one := scanAddr_foundNobody (silent a List.mem_cons_self)
    exact one.trans (scanList_foundNobody as one.net.1 fun b member =>
      sameNet_silent one.net (silent b (List.mem_cons_of_mem a member)))

/-! ## The pass (43 R233 to R236) -/

/-- Every address was scanned and nobody answered. -/
abbrev Master.NobodyAnswered (m : Master) : Prop := ∀ a, Usable a → m.resOf a = .noResponse

theorem conflicted_of_nobody {m : Master} (nobody : m.NobodyAnswered) (a : Addr) : ¬m.Conflicted a :=
  fun ⟨usable, _, answered⟩ => answered (nobody a usable)

theorem not_ok_of_nobody {m : Master} (nobody : m.NobodyAnswered) {a : Addr} (usable : Usable a) : m.resOf a ≠ .ok := by
  rw [nobody a usable]
  exact nofun

theorem extrasMoved_of_nobody {s t : State} (nobody : s.master.NobodyAnswered) (moved : ExtrasMoved s t) : t = s := by
  cases moved with
  | none => rfl
  | one extra => exact absurd extra.2.1 (not_ok_of_nobody nobody extra.1)

theorem pairsSwapped_of_nobody {s t : State} (nobody : s.master.NobodyAnswered) (swapped : PairsSwapped s t) : t = s := by
  cases swapped with
  | none => rfl
  | one mismatched => exact absurd mismatched.1.2.2.1 (not_ok_of_nobody nobody mismatched.1.1)

theorem not_mismatched_of_nobody {m : Master} (nobody : m.NobodyAnswered) (a : Addr) : ¬m.Mismatched a :=
  fun ⟨usable, _, ok, _⟩ => not_ok_of_nobody nobody usable ok

/-- Where nobody answered there is nothing to resolve. -/
theorem passEnds_of_nobody {p t : State} {r : Option ResultCode} (nobody : p.master.NobodyAnswered)
    (renumbered : p.master.renumbered = false) (swapped : p.master.swapped = false) (ends : PassEnds p r t) :
    r = some .ok ∧ t = p := by
  cases ends with
  | noFree conflict => exact absurd conflict (conflicted_of_nobody nobody _)
  | renumbered conflict => exact absurd conflict.1 (conflicted_of_nobody nobody _)
  | conflictStays conflict => exact absurd conflict.1 (conflicted_of_nobody nobody _)
  | missingStays _ moved extra =>
    cases extrasMoved_of_nobody nobody moved
    exact absurd extra.2.1 (not_ok_of_nobody nobody extra.1)
  | typeConflict _ moved _ pairs mismatched =>
    cases extrasMoved_of_nobody nobody moved
    cases pairsSwapped_of_nobody nobody pairs
    exact absurd mismatched.1 (not_mismatched_of_nobody nobody _)
  | swapFails _ moved _ pairs mismatched =>
    cases extrasMoved_of_nobody nobody moved
    cases pairsSwapped_of_nobody nobody pairs
    exact absurd mismatched.1 (not_mismatched_of_nobody nobody _)
  | returns _ moved _ pairs _ =>
    cases extrasMoved_of_nobody nobody moved
    cases pairsSwapped_of_nobody nobody pairs
    rw [renumbered, swapped]
    exact ⟨rfl, rfl⟩

/-! ## The call -/

theorem initAuto_resOf (s : State) (a : Addr) : (initAuto s).master.resOf a = .rescan := by
  simp only [initAuto, State.updMaster, Master.resOf, Vector.get_eq_getElem, Vector.getElem_replicate]

/-- The scan of the call's first pass where every usable address is silent. -/
theorem scanned_nobody {s : State} (clean : s.CleanBus) (silent : ∀ a, Usable a → s.Silent a) :
    FoundNobody (initAuto s) ((initAuto s).scanned 1) ∧ ((initAuto s).scanned 1).master.NobodyAnswered := by
  have found : FoundNobody ((initAuto s).begun 1) (scanAll ((initAuto s).begun 1)) :=
    scanList_foundNobody usableAddrs (s := (initAuto s).begun 1) clean
      fun a member => silent a (mem_usableAddrs.1 member)
  rw [scanned_eq]
  refine ⟨⟨found.net, found.renumbered, found.swapped, found.results⟩, fun a usable => ?_⟩
  have answered := scanned_all (initAuto s) 1 a usable
  rw [scanned_eq] at answered
  exact (found.results a).resolve_left fun same => answered (same.trans (initAuto_resOf s a))

theorem passOutcome_ok (p : State) :
    (passOutcome (some .ok) p).master.autoPasses = none ∧ (passOutcome (some .ok) p).master.result = some .ok ∧
    (∀ a, (passOutcome (some .ok) p).master.resultPerAddress.get a.toFin = p.master.resOf a) ∧
    (passOutcome (some .ok) p).slaves = p.slaves := by
  rw [passOutcome, finishAuto_master]
  exact ⟨rfl, rfl, fun _ => rfl, rfl⟩

/-- Settles O55: the scan finds nobody, so that the pass has nothing to resolve. -/
theorem autoConfigOfAnEmptyNetwork : Obligations.AutoConfigOfAnEmptyNetwork := by
  intro s ready clean laws one nobody capped
  have silent : ∀ a, Usable a → (lockMutex s).Silent a := fun a ⟨notZero, notLast⟩ =>
    ⟨clean, laws, one, fun sl member lives =>
      (nobody sl member).elim (fun own => notZero (lives.symm.trans own)) fun own => notLast (lives.symm.trans own)⟩
  have within : overPasses (initAuto (lockMutex s)).params (0 + 1) = false := by
    rw [Bool.eq_false_iff, ne_eq, overPasses_iff]
    rintro ⟨m, cap, below⟩
    exact capped (cap.trans (congrArg some (Nat.lt_one_iff.1 below)))
  obtain ⟨found, answered⟩ := scanned_nobody (s := lockMutex s) clean silent
  have outside : ∀ a, ¬Usable a → ((initAuto (lockMutex s)).scanned 1).master.resOf a = .rescan :=
    fun a unusable => (scanned_keeps (.inr (.inr unusable))).1.trans (initAuto_resOf _ a)
  obtain ⟨r, t, ends, outcome⟩ := advanceAuto_ends within
  obtain ⟨ok, unmoved⟩ := passEnds_of_nobody answered found.renumbered found.swapped ends
  obtain ⟨returned, result, array, slaves⟩ := passOutcome_ok t
  rw [ok] at outcome
  rw [← outcome] at returned result array slaves
  refine ⟨_, exec_autoConfig ready, returned, result, fun a => ?_, ?_⟩
  · rw [array, unmoved]
    by_cases usable : Usable a
    · rw [if_neg (not_or.2 usable)]
      exact answered a usable
    · rw [if_pos (Decidable.not_not.1 fun inside => usable (not_or.1 inside))]
      exact outside a usable
  · obtain ⟨-, -, -, net⟩ := found.net
    have own := congrArg (List.map Prod.fst) net
    rw [List.map_map, List.map_map] at own
    rw [slaves, unmoved]
    exact own

end Sys2Proof.Machine
end

section
/-! SUPPORT. A contention of renumbers (45 R328): slot by slot each contender hears the AND of those still confirming. -/

namespace Sys2Proof.Machine

/-! ## Who is still confirming -/

/-- The byte on the line at position `j`: the AND of those still confirming. -/
def lineByte (confs : List (List Byte)) (j : Nat) : Byte :=
  ((stillConfirming confs j).map fun d => d.getD j 0).foldl (· &&& ·) 0xFF

theorem mem_still_succ {confs : List (List Byte)} {j : Nat} {c : List Byte} :
    c ∈ stillConfirming confs (j + 1) ↔ c ∈ stillConfirming confs j ∧ c.getD j 0 = lineByte confs j := by
  simp [stillConfirming, lineByte]

/-- Equal confirmations survive together. -/
theorem still_eq_filter (confs : List (List Byte)) : ∀ j : Nat,
    stillConfirming confs j = confs.filter fun c => decide (c ∈ stillConfirming confs j)
  | 0 => (List.filter_eq_self.2 fun _ member => decide_eq_true member).symm
  | j + 1 => by
    have step : stillConfirming confs (j + 1) =
        (stillConfirming confs j).filter fun c => decide (c.getD j 0 = lineByte confs j) := rfl
    calc stillConfirming confs (j + 1)
        = (stillConfirming confs j).filter fun c => decide (c.getD j 0 = lineByte confs j) := step
      _ = (confs.filter fun c => decide (c ∈ stillConfirming confs j)).filter
            fun c => decide (c.getD j 0 = lineByte confs j) := by rw [← still_eq_filter confs j]
      _ = confs.filter fun c => decide (c ∈ stillConfirming confs (j + 1)) := by
        rw [List.filter_filter]
        refine List.filter_congr fun c _ => ?_
        simp only [mem_still_succ, Bool.decide_and, Bool.and_comm]

/-- Two confirmations that both survive agree up to there. -/
theorem still_agree {confs : List (List Byte)} {c d : List Byte} : ∀ {n : Nat}, c ∈ stillConfirming confs n →
    d ∈ stillConfirming confs n → ∀ j < n, c.getD j 0 = d.getD j 0
  | n + 1, survives, survives', j, low => by
    obtain ⟨before, same⟩ := mem_still_succ.1 survives
    obtain ⟨before', same'⟩ := mem_still_succ.1 survives'
    obtain earlier | rfl := Nat.lt_succ_iff_lt_or_eq.1 low
    · exact still_agree before before' j earlier
    · exact same.trans same'.symm

/-! ## One contender -/

/-- A slave that has handed the byte in place `j` of its confirmation to its transmitter. -/
def Slave.contending (p : Params) (j : Nat) (sl : Slave) : Slave :=
  { sl with
    crc := crc8Over p (sl.ctrlResp.toList.take (j + 1)) Config.seed
    lastTx := (sl.confirmation p).getD j 0
    idx := BitVec.ofNat 8 (j + 1) }

section
variable {p : Params} {sl : Slave}

theorem contending_first (starts : sl.StartsConfirming p) : sl.contending p 0 = sl := by
  obtain ⟨-, idx, last, crc, -⟩ := starts
  have first : sl.ctrlResp.toList.take 1 = [sl.ctrlResp[0]] := by rw [vector_toList_five]; rfl
  have byte : (sl.confirmation p).getD 0 0 = sl.ctrlResp[0] := by rw [Slave.confirmation, vector_toList_five]; rfl
  rw [Slave.contending, first, byte, ← last]
  have one : crc8Over p [sl.lastTx] Config.seed = sl.crc := by rw [crc, last]; rfl
  have place : BitVec.ofNat 8 (0 + 1) = sl.idx := idx.symm
  rw [one, place]

theorem confirmation_byte {j : Nat} (low : j < 5) : (sl.confirmation p).getD j 0 = sl.ctrlResp[j] := by
  simp [Slave.confirmation, List.getElem?_append_left, low]

theorem confirmation_crc : (sl.confirmation p).getD 5 0 = payloadCrc p sl.ctrlResp.toList := by
  simp [Slave.confirmation]

theorem onRx_contending_other (starts : sl.StartsConfirming p) {b : Byte} {j : Nat} (f : Free)
    (other : (sl.confirmation p).getD j 0 ≠ b) :
    onRx p b (sl.contending p j) f = ⟨{ sl.contending p j with st := .waitBreak }, f, none⟩ :=
  onRx_confirm_mismatch (sl := sl.contending p j) starts.1 (Ne.symm other)

theorem onRx_contending_same (starts : sl.StartsConfirming p) {j : Nat} (low : j < 5) (f : Free) :
    onRx p ((sl.confirmation p).getD j 0) (sl.contending p j) f =
      ⟨sl.contending p (j + 1), f, some ((sl.confirmation p).getD (j + 1) 0)⟩ := by
  have heard : (sl.confirmation p).getD j 0 = (sl.contending p j).lastTx := rfl
  obtain last | early : j = 4 ∨ j + 1 < 5 := by omega
  · subst last
    have all : ∀ n, 5 ≤ n → sl.ctrlResp.toList.take n = sl.ctrlResp.toList := fun n long =>
      List.take_of_length_le (by simpa using long)
    have crc : (sl.contending p 4).crc = (sl.confirmation p).getD 5 0 := by
      rw [confirmation_crc, Slave.contending, payloadCrc, all 5 (by decide)]
    have next : ({ sl.contending p 4 with lastTx := (sl.contending p 4).crc, idx := 6 } : Slave) = sl.contending p 5 := by
      rw [Slave.contending, Slave.contending, all 5 (by decide), all 6 (by decide), confirmation_crc]
      rfl
    rw [onRx_confirm_crc (sl := sl.contending p 4) starts.1 heard rfl, next, crc]
  · have place : (sl.contending p j).idx.toNat = j + 1 := by
      rw [Slave.contending, BitVec.toNat_ofNat, Nat.mod_eq_of_lt (by omega)]
    have inRange : (sl.contending p j).idx.toNat < 5 := by rw [place]; exact early
    have next : BitVec.ofNat 8 (j + 1) + 1 = BitVec.ofNat 8 (j + 1 + 1) := by bv_omega
    have taken : sl.ctrlResp.toList.take (j + 1 + 1) = sl.ctrlResp.toList.take (j + 1) ++ [sl.ctrlResp[j + 1]] := by
      rw [List.take_succ_eq_append_getElem (by simpa using early)]; simp
    rw [onRx_confirm_byte (sl := sl.contending p j) starts.1 heard inRange, confirmation_byte early]
    simp only [place]
    simp only [Slave.contending, next, taken, crc8Over_concat, confirmation_byte early]

/-- What became of a contender after `j` slots: it sends its byte in place `j`, has adopted its target, or has lost. -/
inductive Contends (p : Params) (on : Prop) (j : Nat) (f : Free) (sl : Slave) : Reaction → Prop where
  | sending : j < 6 → on → Contends p on j f sl ⟨sl.contending p j, f, some ((sl.confirmation p).getD j 0)⟩
  | adopted {x : Slave} : j = 6 → on → x.Deaf → x.ownAddr = sl.renumTarget → x.eepromAddr = sl.renumTarget →
      Contends p on j f sl ⟨x, f, none⟩
  | lost {x : Slave} : ¬on → x.Deaf → x.ownAddr = sl.ownAddr → x.eepromAddr = sl.eepromAddr →
      Contends p on j f sl ⟨x, f, none⟩

/-- A slot that carries `b`: who sent another byte has lost. -/
theorem contends_step (starts : sl.StartsConfirming p) {on : Prop} {j : Nat} {f : Free} {b : Byte} {r : Reaction}
    (contends : Contends p on j f sl r) (low : j < 6) :
    Contends p (on ∧ (sl.confirmation p).getD j 0 = b) (j + 1) f sl (onRx p b r.slave f) := by
  have silent : (sl.contending p j).txEn = false := starts.2.2.2.2
  cases contends with
  | sending _ still =>
    by_cases same : (sl.confirmation p).getD j 0 = b
    · subst same
      obtain last | early : j = 5 ∨ j < 5 := by omega
      · subst last
        have commits := onRx_confirm_commit (p := p) (sl := sl.contending p 5) (f := f) starts.1
          (show (sl.confirmation p).getD 5 0 = _ from rfl) rfl
        rw [commits]
        exact .adopted rfl ⟨still, rfl⟩ ⟨rfl, silent⟩ rfl rfl
      · rw [onRx_contending_same starts early]
        exact .sending (by omega) ⟨still, rfl⟩
    · rw [onRx_contending_other starts f same]
      exact .lost (fun both => same both.2) ⟨rfl, silent⟩ rfl rfl
  | adopted done => omega
  | lost out deaf own persisted =>
    rw [onRx_deaf p b deaf]
    exact .lost (fun both => out both.1) deaf own persisted

/-- A contender after `j` slots with these bytes. -/
def Slave.contender (p : Params) (f : Free) (line : Nat → Byte) : Nat → Slave → Reaction
  | 0, sl => ⟨sl, f, some sl.ctrlResp[0]⟩
  | j + 1, sl => onRx p (line j) (sl.contender p f line j).slave f

theorem contender_contends {confs : List (List Byte)} (starts : sl.StartsConfirming p) (f : Free)
    (takesPart : sl.confirmation p ∈ confs) : ∀ {j : Nat}, j ≤ 6 →
      Contends p (sl.confirmation p ∈ stillConfirming confs j) j f sl (sl.contender p f (lineByte confs) j)
  | 0, _ => by
    have first := Contends.sending (p := p) (on := sl.confirmation p ∈ stillConfirming confs 0) (j := 0) (f := f)
      (sl := sl) (by decide) takesPart
    rw [contending_first starts, confirmation_byte (by decide)] at first
    exact first
  | j + 1, low => by
    rw [mem_still_succ]
    exact contends_step starts (contender_contends starts f takesPart (Nat.le_of_succ_le low)) low

end

end Sys2Proof.Machine
end

section
/-! SUPPORT. The bus during a contention (45 R328), and after it. -/

namespace Sys2Proof.Machine

/-! ## The transmitters -/

/-- What these slaves have handed to their transmitters, by place. -/
def handedOver (tx : Slave → Option Byte) : Nat → List Slave → List (Nat × Byte)
  | _, [] => []
  | i, sl :: l => ((tx sl).toList.map fun b => (i, b)) ++ handedOver tx (i + 1) l

theorem handedOver_bytes (tx : Slave → Option Byte) : ∀ (i : Nat) (l : List Slave),
    (handedOver tx i l).map (·.2) = l.filterMap tx
  | _, [] => rfl
  | i, sl :: l => by
    cases h : tx sl with
    | none => simp [handedOver, h, handedOver_bytes tx (i + 1) l]
    | some b => simp [handedOver, h, handedOver_bytes tx (i + 1) l]

theorem handedOver_above (tx : Slave → Option Byte) : ∀ (i : Nat) (l : List Slave), ∀ x ∈ handedOver tx i l, i ≤ x.1
  | i, sl :: l, x, member => by
    obtain here | later := List.mem_append.1 member
    · obtain ⟨b, -, rfl⟩ := List.mem_map.1 here
      exact Nat.le_refl i
    · exact Nat.le_of_succ_le (handedOver_above tx (i + 1) l x later)

/-- Each transmitter holds one byte at most. -/
theorem handedOver_nodup (tx : Slave → Option Byte) : ∀ (i : Nat) (l : List Slave), ((handedOver tx i l).map (·.1)).Nodup
  | _, [] => List.nodup_nil
  | i, sl :: l => by
    have rest := handedOver_nodup tx (i + 1) l
    have above : i ∉ (handedOver tx (i + 1) l).map (·.1) := fun member => by
      obtain ⟨x, there, same⟩ := List.mem_map.1 member
      have := handedOver_above tx (i + 1) l x there
      omega
    cases h : tx sl with
    | none => simpa [handedOver, h] using rest
    | some b =>
      rw [handedOver, h]
      exact List.nodup_cons.2 ⟨above, rest⟩

theorem handedOver_congr {tx tx' : Slave → Option Byte} : ∀ (i : Nat) {l : List Slave}, (∀ sl ∈ l, tx sl = tx' sl) →
    handedOver tx i l = handedOver tx' i l
  | _, [], _ => rfl
  | i, sl :: l, same => by
    rw [handedOver, handedOver, same sl List.mem_cons_self,
      handedOver_congr (i + 1) fun x member => same x (List.mem_cons_of_mem sl member)]

theorem handedOver_none : ∀ (i : Nat) (l : List Slave), handedOver (fun _ => none) i l = []
  | _, [] => rfl
  | i, _ :: l => handedOver_none (i + 1) l

theorem handedOver_mapIdx (g : Slave → Byte) : ∀ (l : List Slave) (i : Nat),
    handedOver (fun sl => some (g sl)) i l = l.mapIdx fun j sl => (i + j, g sl)
  | [], _ => rfl
  | sl :: l, i => by
    rw [handedOver, handedOver_mapIdx g l (i + 1), List.mapIdx_cons]
    simp [Nat.add_assoc, Nat.add_comm 1]

/-- Slaves that react without drawing. -/
theorem reactAll_steady {h : Nat → Slave → Free → Reaction} {f : Free} {before : Slave → Slave} {after : Slave → Reaction} :
    ∀ (l : List Slave) (i : Nat), (∀ j, ∀ sl ∈ l, h j (before sl) f = after sl) → (∀ sl ∈ l, (after sl).free = f) →
      reactAll h i (l.map before) f = (l.map (fun sl => (after sl).slave), f, handedOver (fun sl => (after sl).tx) i l)
  | [], _, _, _ => rfl
  | sl :: l, i, reacts, steady => by
    have rest := reactAll_steady (h := h) (f := f) (before := before) (after := after) l (i + 1)
      (fun j x member => reacts j x (List.mem_cons_of_mem sl member))
      fun x member => steady x (List.mem_cons_of_mem sl member)
    have first := reacts i sl List.mem_cons_self
    have same := steady sl List.mem_cons_self
    simp only [List.map_cons, reactAll, first, same, rest, handedOver]

theorem wiredAnd_eq (b : Byte) (bs : List Byte) : wiredAnd b bs = (b :: bs).foldl (· &&& ·) 0xFF := by
  have first : (0xFF : Byte) &&& b = b := BitVec.allOnes_and
  rw [wiredAnd, List.foldl_cons, first]

/-! ## The contention slot by slot -/

/-- The system after `j` slots of a contention of the slaves `l`. -/
structure Contention (p : Params) (f : Free) (l : List Slave) (j : Nat) (t : State) : Prop where
  params : t.params = p
  free : t.free = f
  quiet : t.bus.breakOn = false
  undisturbed : t.bus.noise = []
  slaves : t.slaves = l.map fun sl => (sl.contender p f (lineByte (l.map (Slave.confirmation p))) j).slave
  inFlight : t.bus.inFlight = handedOver (fun sl => (sl.contender p f (lineByte (l.map (Slave.confirmation p))) j).tx) 0 l

section
variable {p : Params} {f : Free} {l : List Slave}

/-- What becomes of a slave of the contention. -/
theorem contention_contends (starts : ∀ sl ∈ l, sl.StartsConfirming p) {j : Nat} (low : j ≤ 6) {sl : Slave} (member : sl ∈ l) :
    Contends p (sl.confirmation p ∈ stillConfirming (l.map (Slave.confirmation p)) j) j f sl
      (sl.contender p f (lineByte (l.map (Slave.confirmation p))) j) :=
  contender_contends (starts sl member) f (List.mem_map_of_mem member) low

theorem Contends.tx_eq {on : Prop} [Decidable on] {j : Nat} {sl : Slave} {r : Reaction} (contends : Contends p on j f sl r)
    (low : j < 6) : r.tx = if on then some ((sl.confirmation p).getD j 0) else none := by
  cases contends with
  | sending _ still => exact (if_pos still).symm
  | adopted done => omega
  | lost out => exact (if_neg out).symm

theorem Contends.silent {on : Prop} {j : Nat} {sl : Slave} {r : Reaction} (contends : Contends p on j f sl r)
    (starts : sl.StartsConfirming p) : r.slave.txEn = false := by
  cases contends with
  | sending => exact starts.2.2.2.2
  | adopted _ _ deaf => exact deaf.2
  | lost _ deaf => exact deaf.2

theorem Contends.free_eq {on : Prop} {j : Nat} {sl : Slave} {r : Reaction} (contends : Contends p on j f sl r) : r.free = f := by
  cases contends <;> rfl

theorem Contends.tx_last {on : Prop} {sl : Slave} {r : Reaction} (contends : Contends p on 6 f sl r) : r.tx = none := by
  cases contends with
  | sending early => exact absurd early (by decide)
  | adopted => rfl
  | lost => rfl

theorem Contends.deaf_of_none {on : Prop} {j : Nat} {sl : Slave} {r : Reaction} (contends : Contends p on j f sl r)
    (nothing : r.tx = none) : r.slave.Deaf := by
  cases contends with
  | sending => cases nothing
  | adopted _ _ deaf => exact deaf
  | lost _ deaf => exact deaf

theorem filterMap_still (S : List (List Byte)) (j : Nat) : ∀ l : List Slave,
    l.filterMap (fun sl => if sl.confirmation p ∈ S then some ((sl.confirmation p).getD j 0) else none) =
      ((l.map (Slave.confirmation p)).filter fun c => decide (c ∈ S)).map fun c => c.getD j 0
  | [] => rfl
  | sl :: l => by
    have rest := filterMap_still S j l
    by_cases member : sl.confirmation p ∈ S
    · simpa [List.filterMap_cons, List.filter_cons, member] using rest
    · simpa [List.filterMap_cons, List.filter_cons, member] using rest

/-- The bytes of a slot are those of the confirmations that are left. -/
theorem contention_bytes (starts : ∀ sl ∈ l, sl.StartsConfirming p) {j : Nat} (low : j < 6) {t : State}
    (now : Contention p f l j t) :
    t.bus.pending = (stillConfirming (l.map (Slave.confirmation p)) j).map fun c => c.getD j 0 := by
  have nodup := handedOver_nodup (fun sl => (sl.contender p f (lineByte (l.map (Slave.confirmation p))) j).tx) 0 l
  rw [← now.inFlight] at nodup
  rw [pending_nodup nodup, now.inFlight, handedOver_bytes, still_eq_filter, ← filterMap_still]
  exact List.filterMap_congr fun sl member => (contention_contends starts (Nat.le_of_lt low) member).tx_eq low

theorem contention_queued {j : Nat} {t : State} (now : Contention p f l j t) : t.bus.queued = [] :=
  queued_nodup (by rw [now.inFlight]; exact handedOver_nodup _ 0 l)

theorem contention_serve (starts : ∀ sl ∈ l, sl.StartsConfirming p) {j : Nat} (low : j ≤ 6) {t : State}
    (now : Contention p f l j t) : serveTxe t = t := by
  refine serveTxe_idle fun y member => ?_
  rw [now.slaves] at member
  obtain ⟨sl, there, rfl⟩ := List.mem_map.1 member
  exact (contention_contends starts low there).silent (starts sl there)

/-- A slot nobody sends in changes nothing: every contender is back in WaitBreak. -/
theorem contention_silent_slot (starts : ∀ sl ∈ l, sl.StartsConfirming p) {j : Nat} (low : j < 6) {t : State}
    (now : Contention p f l j t) (nothing : t.bus.pending = []) : slot none t = t ∧ Contention p f l (j + 1) t := by
  have serve := contention_serve starts (Nat.le_of_lt low) now
  have deaf : ∀ sl ∈ l, (sl.contender p f (lineByte (l.map (Slave.confirmation p))) j).tx = none ∧
      (sl.contender p f (lineByte (l.map (Slave.confirmation p))) j).slave.Deaf := by
    intro sl member
    have nodup := handedOver_nodup (fun sl => (sl.contender p f (lineByte (l.map (Slave.confirmation p))) j).tx) 0 l
    rw [← now.inFlight] at nodup
    rw [pending_nodup nodup, now.inFlight, handedOver_bytes, List.filterMap_eq_nil_iff] at nothing
    exact ⟨nothing sl member, (contention_contends starts (Nat.le_of_lt low) member).deaf_of_none (nothing sl member)⟩
  have still : ∀ sl ∈ l, sl.contender p f (lineByte (l.map (Slave.confirmation p))) (j + 1) =
      .quiet (sl.contender p f (lineByte (l.map (Slave.confirmation p))) j).slave f :=
    fun sl member => onRx_deaf p _ (deaf sl member).2 f
  constructor
  · have ticks : slot none t = tickAll t := by simp [slot, serve, nothing, carry]
    rw [ticks]
    refine tickAll_idle fun y member => ?_
    rw [now.slaves] at member
    obtain ⟨sl, there, rfl⟩ := List.mem_map.1 member
    rw [(deaf sl there).2.1]
    exact nofun
  · refine { now with slaves := ?_, inFlight := ?_ }
    · rw [now.slaves]
      exact List.map_congr_left fun sl member => by rw [still sl member]; rfl
    · rw [now.inFlight]
      exact handedOver_congr 0 fun sl member => by rw [still sl member]; exact (deaf sl member).1

/-- Every slot brings the contention one position on. -/
theorem contention_next (starts : ∀ sl ∈ l, sl.StartsConfirming p) {j : Nat} (low : j < 6) {t : State}
    (now : Contention p f l j t) : Contention p f l (j + 1) (busTurn t) := by
  have turn : busTurn t = slot none t := by rw [busTurn, now.quiet]; rfl
  rw [turn]
  cases sent : t.bus.pending with
  | nil =>
    obtain ⟨same, next⟩ := contention_silent_slot starts low now sent
    rw [same]
    exact next
  | cons b bs =>
    have line : wiredAnd b bs = lineByte (l.map (Slave.confirmation p)) j := by
      rw [wiredAnd_eq, ← sent, contention_bytes starts low now, lineByte]
    have carried : (t.bus.noise.headD .clean).Carries := by rw [now.undisturbed]; exact ⟨nofun, nofun⟩
    have slotted : slot none t =
        deliver (lineByte (l.map (Slave.confirmation p)) j) { t with bus := { t.bus with inFlight := [] } } := by
      simp [slot, contention_serve starts (Nat.le_of_lt low) now, sent, carry, line, contention_queued now]
    have reacts := reactAll_steady (f := f) (h := fun _ sl f => onRx p (lineByte (l.map (Slave.confirmation p)) j) sl f)
      (before := fun sl => (sl.contender p f (lineByte (l.map (Slave.confirmation p))) j).slave)
      (after := fun sl => sl.contender p f (lineByte (l.map (Slave.confirmation p))) (j + 1)) l 0
      (fun _ _ _ => rfl) fun sl member => (contention_contends starts low member).free_eq
    have unflipped : ∀ b : Byte, b ^^^ Noise.clean.maskAtSlaves = b := fun b => BitVec.xor_zero
    rw [slotted, deliver_eq (s := { t with bus := { t.bus with inFlight := [] } }) _ carried]
    simp only [now.undisturbed, List.headD_nil, unflipped, rxAll, State.react, State.hear, now.params, now.free, now.slaves, reacts]
    exact {
      params := rfl, free := rfl, quiet := now.quiet, undisturbed := rfl, slaves := rfl
      inFlight := List.nil_append _ }

theorem busTurns_succ : ∀ (k : Nat) (s : State), busTurns (k + 1) s = busTurn (busTurns k s)
  | 0, _ => rfl
  | k + 1, s => busTurns_succ k (busTurn s)

theorem contention_after (starts : ∀ sl ∈ l, sl.StartsConfirming p) {s : State} (begins : Contention p f l 0 s) :
    ∀ {j : Nat}, j ≤ 6 → Contention p f l j (busTurns j s)
  | 0, _ => begins
  | j + 1, low => by
    rw [busTurns_succ]
    exact contention_next starts low (contention_after starts begins (Nat.le_of_succ_le low))

end

/-- The start of a contention. -/
theorem contention_begins {s : State} (quiet : s.bus.breakOn = false) (undisturbed : s.bus.noise = [])
    (held : s.bus.inFlight = s.slaves.mapIdx fun i sl => (i, sl.ctrlResp[0])) :
    Contention s.params s.free s.slaves 0 s where
  params := rfl
  free := rfl
  quiet := quiet
  undisturbed := undisturbed
  slaves := List.map_id'' (fun _ => rfl) s.slaves |>.symm
  inFlight := by
    rw [held]
    have bytes := handedOver_mapIdx (fun sl => sl.ctrlResp[0]) s.slaves 0
    simp only [Nat.zero_add] at bytes
    exact bytes.symm

/-- What six slots leave of a contender. -/
theorem Contends.final {p : Params} {on : Prop} {f : Free} {sl : Slave} {r : Reaction} (contends : Contends p on 6 f sl r) :
    r.slave.Deaf ∧ (on → r.slave.ownAddr = sl.renumTarget ∧ r.slave.eepromAddr = sl.renumTarget) ∧
      (¬on → r.slave.ownAddr = sl.ownAddr ∧ r.slave.eepromAddr = sl.eepromAddr) := by
  cases contends with
  | sending early => exact absurd early (by decide)
  | adopted _ still deaf own persisted => exact ⟨deaf, fun _ => ⟨own, persisted⟩, fun out => absurd still out⟩
  | lost out deaf own persisted => exact ⟨deaf, fun still => absurd still out, fun _ => ⟨own, persisted⟩⟩

/-- Settles O32: each slave after six slots is what its part in the contention says. -/
theorem contentionLeavesTheSurvivors : Obligations.ContentionLeavesTheSurvivors := by
  intro s quiet undisturbed held starts
  have after := contention_after starts (contention_begins quiet undisturbed held) (Nat.le_refl 6)
  refine ⟨by rw [after.slaves, List.length_map], fun i sl at_i => ?_⟩
  obtain ⟨⟨waits, -⟩, survivor, loser⟩ :=
    (contention_contends starts (f := s.free) (Nat.le_refl 6) (List.mem_of_getElem? at_i)).final
  exact ⟨_, by rw [after.slaves, List.getElem?_map, at_i]; rfl, waits, survivor, loser⟩

/-! ## Two contenders, however long the bus goes on -/

/-- Before the sixth slot nobody has committed. -/
theorem Contends.unmoved {p : Params} {on : Prop} {j : Nat} {f : Free} {sl : Slave} {r : Reaction}
    (contends : Contends p on j f sl r) (low : j < 6) : r.slave.ownAddr = sl.ownAddr ∧ r.slave.eepromAddr = sl.eepromAddr := by
  cases contends with
  | sending => exact ⟨rfl, rfl⟩
  | adopted done => omega
  | lost _ _ own persisted => exact ⟨own, persisted⟩

/-- After the sixth slot nothing moves. -/
theorem contention_over {p : Params} {f : Free} {l : List Slave} {t : State} (starts : ∀ sl ∈ l, sl.StartsConfirming p)
    (after : Contention p f l 6 t) : busTurn t = t := by
  have deaf : ∀ sl ∈ l, (sl.contender p f (lineByte (l.map (Slave.confirmation p))) 6).slave.Deaf :=
    fun sl member => (contention_contends starts (Nat.le_refl 6) member).final.1
  have deafThen : ∀ y ∈ t.slaves, y.Deaf := by
    intro y member
    rw [after.slaves] at member
    obtain ⟨sl, there, rfl⟩ := List.mem_map.1 member
    exact deaf sl there
  have empty : t.bus.inFlight = [] := by
    rw [after.inFlight, handedOver_congr (tx' := fun _ => none) 0 fun sl member => ?_, handedOver_none]
    exact (contention_contends starts (Nat.le_refl 6) member).tx_last
  rw [busTurn, after.quiet, if_neg Bool.false_ne_true, slot_none (fun y member => (deafThen y member).2) empty]
  exact tickAll_idle fun y member => by rw [(deafThen y member).1]; exact nofun

theorem busTurns_add : ∀ (k m : Nat) (s : State), busTurns (k + m) s = busTurns m (busTurns k s)
  | 0, m, s => by rw [Nat.zero_add, busTurns]
  | k + 1, m, s => by rw [Nat.succ_add, busTurns, busTurns_add k m, busTurns]

theorem busTurns_fixed {t : State} (still : busTurn t = t) : ∀ m : Nat, busTurns m t = t
  | 0 => rfl
  | m + 1 => by rw [busTurns, still, busTurns_fixed still m]

theorem ctrlResp_of_confirmation {p : Params} {a b : Slave}
    (same : ∀ j < 6, (a.confirmation p).getD j 0 = (b.confirmation p).getD j 0) : a.ctrlResp = b.ctrlResp := by
  refine Vector.ext fun j low => ?_
  have byte := same j (Nat.lt_succ_of_lt low)
  rw [confirmation_byte low, confirmation_byte low] at byte
  exact byte

/-- Settles O33: two that both survive sent the same bytes. -/
theorem atMostOneOfTwoCommits : Obligations.AtMostOneOfTwoCommits := by
  intro s a b k two quiet undisturbed held startsA startsB differ
  have starts : ∀ sl ∈ s.slaves, sl.StartsConfirming s.params := by
    rw [two]
    exact List.forall_mem_cons.2 ⟨startsA, List.forall_mem_singleton.2 startsB⟩
  have memberA : a ∈ s.slaves := by simp [two]
  have memberB : b ∈ s.slaves := by simp [two]
  have begins := contention_begins quiet undisturbed (by rw [held, two]; rfl)
  have slaves : ∀ {j : Nat} {t : State}, Contention s.params s.free s.slaves j t → t.slaves =
      [(a.contender s.params s.free (lineByte (s.slaves.map (Slave.confirmation s.params))) j).slave,
        (b.contender s.params s.free (lineByte (s.slaves.map (Slave.confirmation s.params))) j).slave] := by
    intro j t now
    rw [now.slaves]
    exact (congrArg (List.map _) two).trans rfl
  obtain early | late := Nat.lt_or_ge k 6
  · have now := contention_after starts begins (Nat.le_of_lt early)
    exact ⟨_, _, slaves now, .inl ((contention_contends starts (Nat.le_of_lt early) memberA).unmoved early)⟩
  · have after := contention_after starts begins (Nat.le_refl 6)
    obtain ⟨m, rfl⟩ := Nat.exists_eq_add_of_le late
    rw [busTurns_add, busTurns_fixed (contention_over starts after)]
    obtain ⟨-, -, loserA⟩ := (contention_contends starts (f := s.free) (Nat.le_refl 6) memberA).final
    obtain ⟨-, -, loserB⟩ := (contention_contends starts (f := s.free) (Nat.le_refl 6) memberB).final
    refine ⟨_, _, slaves after, ?_⟩
    by_cases survivesA : a.confirmation s.params ∈ stillConfirming (s.slaves.map (Slave.confirmation s.params)) 6
    · refine .inr (loserB fun survivesB => differ ?_)
      exact ctrlResp_of_confirmation (still_agree survivesA survivesB)
    · exact .inl (loserA survivesA)

end Sys2Proof.Machine
end
